-- ==== Sys2Proof/Word.lean ====
section
/-! DEFINITION. The bit-vector types of the block (00_scope.md R9): every value is unsigned. -/

namespace Sys2Proof

/-- A register or bus word, 32 bits (R8, R54). -/
abbrev Word := BitVec 32

/-- A raw byte, or one 8-bit code unit of Base64 text (R12). -/
abbrev Byte := BitVec 8

/-- A 6-bit index into the alphabet (R14). -/
abbrev Sextet := BitVec 6

/-- An entry of the decoding table, 7 bits: 0..63, 64 or 80 (R106). -/
abbrev TabVal := BitVec 7

end Sys2Proof
end

