-- ==== Sys2Proof/Config.lean ====
section
/-! DEFINITION. What is fixed for the hardware (00_scope.md R8).

The open parameters of R8 are not constants here, so that no claim can rest on a value of one:
* `BASE` is 32 times the field `window` of State, and statements quantify over it;
* `LAT` is the place of a completion among the inputs of State;
* `HOSTS` is the host number that each access carries;
* `N_INST` is the length of a `System` (Machine/System.lean);
* `RESET_KIND` is not observable.

The spec leaves no value free: it fixes the output even for malformed groups (R141, R152), so no opaque constant is needed. -/

namespace Sys2Proof.Config

/-- The register window is 32 bytes (R8, R50), and BASE is a multiple of it. -/
abbrev windowBytes : Nat := 32

/-- The one defined access width in bytes (R54). -/
abbrev accessBytes : Nat := 4

end Sys2Proof.Config
end

