-- ==== Sys2Proof/Syntax.lean ====
section
/-! DEFINITION. The command words' syntax: the six commands of 30_encoding.md R82, the fields of the format CMD32 (R80), and
the names under which a reserved word is rejected (R89). -/

namespace Sys2Proof

/-- The six commands, one constructor per row of spec/opcode_table.json. None has an operand: data come from DIN (R81, R91). -/
inductive Instr where
  /-- `nop`: do nothing (R176). -/
  | nop
  /-- `enc.1`: encode a 1-byte remainder (R124). -/
  | enc1
  /-- `enc.2`: encode a 2-byte remainder (R123). -/
  | enc2
  /-- `enc.3`: encode a complete triple (R122). -/
  | enc3
  /-- `dec`: decode a quadruple with no padding detection (R143). -/
  | dec
  /-- `dec.last`: decode the final group of a message (R144). -/
  | decLast
deriving DecidableEq, Repr

/-- The fields of a command word, format CMD32 (R80), most significant first. -/
structure Cmd32 where
  rsv  : BitVec 25
  last : BitVec 1
  cnt  : BitVec 2
  op   : BitVec 4
deriving DecidableEq, Repr

/-- Why a command word is reserved: the classes of R89, in the order the decoder looks for them. -/
inductive ReservedReason where
  /-- A nonzero RSV field. -/
  | rsvNonzero
  /-- OP in 0x3..0xF. -/
  | opReserved
  /-- `nop` with CNT ≠ 0. -/
  | nopCount
  /-- `nop` with LAST = 1. -/
  | nopLast
  /-- `enc` with LAST = 1. -/
  | encLast
  /-- `enc` with CNT = 0. -/
  | encCountZero
  /-- `dec` with CNT ≠ 0. -/
  | decCount
deriving DecidableEq, Repr

/-- What a command word decodes to (R83): one of the six commands, or Reserved. -/
inductive Decoded where
  | instr (i : Instr)
  | reserved (why : ReservedReason)
deriving DecidableEq, Repr

end Sys2Proof
end

