-- ==== Sys2Proof/WellFormed.lean ====
section
/-! DEFINITION. Which field values make a defined command word (30_encoding.md R80, R82, R89), one check per field. -/

namespace Sys2Proof

/-- RSV must be 0 (R80). -/
def Cmd32.rsvOk (c : Cmd32) : Bool := c.rsv == 0

/-- OP is nop, enc or dec (R80). -/
def Cmd32.opOk (c : Cmd32) : Bool := c.op.toNat ≤ 2

/-- CNT is 1..3 for enc, and 0 for nop and dec (R80). -/
def Cmd32.cntOk (c : Cmd32) : Bool := if c.op = 1 then c.cnt != 0 else c.cnt == 0

/-- LAST may be 1 for dec only (R80). -/
def Cmd32.lastOk (c : Cmd32) : Bool := c.op == 2 || c.last == 0

/-- A defined command word: every check holds. -/
def Cmd32.wf (c : Cmd32) : Bool := c.rsvOk && c.opOk && c.cntOk && c.lastOk

/-- The columns OP, CNT and LAST of R82's table. -/
def Instr.fields : Instr → Cmd32
  | .nop     => { rsv := 0, last := 0, cnt := 0, op := 0 }
  | .enc1    => { rsv := 0, last := 0, cnt := 1, op := 1 }
  | .enc2    => { rsv := 0, last := 0, cnt := 2, op := 1 }
  | .enc3    => { rsv := 0, last := 0, cnt := 3, op := 1 }
  | .dec     => { rsv := 0, last := 0, cnt := 0, op := 2 }
  | .decLast => { rsv := 0, last := 1, cnt := 0, op := 2 }

/-- An instruction is well formed when its fields are. Instr has no operands, so Laws/PerInstr.lean shows it of all six. -/
def Instr.wf (i : Instr) : Bool := i.fields.wf

end Sys2Proof
end

