-- ==== Sys2Proof/Decode.lean ====
section
/-! DEFINITION. Decoding a 32-bit command word (30_encoding.md R80, R83, R89), total and rejecting by name, and the encoder
(R82). Decoding never depends on a mode (R90). -/

namespace Sys2Proof

/-- The fields of a command word (R80). -/
def Cmd32.ofWord (w : Word) : Cmd32 where
  rsv  := w.extractLsb' 7 25
  last := w.extractLsb' 6 1
  cnt  := w.extractLsb' 4 2
  op   := w.extractLsb' 0 4

/-- The command word with the given fields (R80). -/
def Cmd32.toWord (c : Cmd32) : Word := c.rsv ++ c.last ++ c.cnt ++ c.op

/-- `nop` takes CNT = 0 and LAST = 0 (R80, R89). -/
def decodeNop (c : Cmd32) : Decoded :=
  if c.cnt ≠ 0 then .reserved .nopCount
  else if c.last ≠ 0 then .reserved .nopLast
  else .instr .nop

/-- `enc` takes CNT = 1..3 and LAST = 0 (R80, R89). -/
def decodeEnc (c : Cmd32) : Decoded :=
  if c.last ≠ 0 then .reserved .encLast
  else if c.cnt = 0 then .reserved .encCountZero
  else if c.cnt = 1 then .instr .enc1
  else if c.cnt = 2 then .instr .enc2
  else .instr .enc3

/-- `dec` takes CNT = 0; LAST marks the final group (R80, R89). -/
def decodeDec (c : Cmd32) : Decoded :=
  if c.cnt ≠ 0 then .reserved .decCount
  else if c.last = 0 then .instr .dec
  else .instr .decLast

/-- The decoder on the fields of R80. -/
def decodeFields (c : Cmd32) : Decoded :=
  if c.rsv ≠ 0 then .reserved .rsvNonzero
  else if c.op = 0 then decodeNop c
  else if c.op = 1 then decodeEnc c
  else if c.op = 2 then decodeDec c
  else .reserved .opReserved

/-- `decode(w)` of R83. -/
def decodeWord (w : Word) : Decoded := decodeFields (Cmd32.ofWord w)

/-- The instruction a decoded word stands for, none for a reserved word. -/
def Decoded.instr? : Decoded → Option Instr
  | .instr i    => some i
  | .reserved _ => none

/-- The command word of an instruction (R82, the column `word`). -/
def encode : Instr → Word
  | .nop     => 0x00000000
  | .enc1    => 0x00000011
  | .enc2    => 0x00000021
  | .enc3    => 0x00000031
  | .dec     => 0x00000002
  | .decLast => 0x00000042

/-- The command word whose low `nbits` bits are those of `w` and whose other bits are 0. A command is one 32-bit word, so the
opcode table's numbering of bits is the word's own. -/
def tableWord (nbits w : Nat) : Word := BitVec.ofNat 32 (w % 2 ^ nbits)

/-- The decoder on an opcode-table word; a value that does not fit the one command length of 32 bits (R90) is refused. -/
def decodeTableWord (nbits w : Nat) : Option Instr :=
  if w % 2 ^ nbits < 2 ^ 32 then (decodeWord (tableWord nbits w)).instr? else none

end Sys2Proof
end

