-- ==== Sys2Proof/Machine/State.lean ====
section
/-! DEFINITION. The state of one block instance (10_state.md R20, R40), the inputs that drive it (43_control.md R170), and the
reasons a step can stop. -/

namespace Sys2Proof.Machine

/-- How many input bytes an encoder command takes: 1, 2 or 3 (R83, R121). -/
inductive EncCount where
  | one | two | three
deriving DecidableEq, Repr

/-- What an accepted command does: `Enc(c)` or `Dec(l)` of R83. It stands for the fields op, cnt and last of PEND (R40); their
values are `Operation.op`, `.cnt` and `.last`. DESIGN CHOICE (log entry 5), safe: a record no command word gives cannot be written. -/
inductive Operation where
  | enc (cnt : EncCount)
  | dec (last : Bool)
deriving DecidableEq, Repr

/-- The record of the pending command (R40). -/
structure PendRec where
  operation : Operation
  /-- DIN at acceptance. -/
  din : Word
  /-- CONFIG.STRICT at acceptance. -/
  strict : Bool
deriving DecidableEq, Repr

/-- The three error events, each with a sticky STATUS bit (60_exceptions.md R200). -/
inductive Event where
  | errCmd | errOvr | errEnc
deriving DecidableEq, Repr

/-- A bus access reads, or writes a value (20_memory.md R51). -/
inductive AccessKind where
  | read
  | write (v : Word)
deriving DecidableEq, Repr

/-- One bus access: `MemRead(addr, bytes)` or `MemWrite(addr, bytes, v)` (R11), and the host that makes it (R8, R70). -/
structure Access where
  host  : Nat
  addr  : Nat
  bytes : Nat
  kind  : AccessKind
deriving DecidableEq, Repr

/-- One step of a run (R170): a host access, the block's turn to complete, or reset asserted or released (R230, R233). -/
inductive Input where
  | access (a : Access)
  | blockTurn
  | assertReset
  | releaseReset
deriving DecidableEq, Repr

/-- The word a read returned, and the host that made the read. -/
structure Reply where
  host  : Nat
  value : Word
deriving DecidableEq, Repr

/-- The state: every row of R20, then the model's own fields (INVENTORY.md, State). -/
structure State where
  /-- CONFIG.STRICT (R23). -/
  strict : Bool
  /-- DIN (R24). -/
  din : Word
  /-- DOUT (R26). -/
  dout : Word
  /-- STATUS.BUSY (R27). -/
  busy : Bool
  /-- STATUS.OUTLEN (R27). -/
  outlen : BitVec 3
  /-- STATUS.NPAD (R27). -/
  npad : BitVec 2
  /-- STATUS.INV (R27). -/
  inv : Bool
  /-- STATUS.ERR_CMD, sticky (R27). -/
  errCmd : Bool
  /-- STATUS.ERR_OVR, sticky (R27). -/
  errOvr : Bool
  /-- STATUS.ERR_ENC, sticky (R27). -/
  errEnc : Bool
  /-- PEND (R40). -/
  pend : Option PendRec
  /-- The model's own: reset is asserted (R233). Log entry 8. -/
  inReset : Bool
  /-- The model's own: the parameter BASE divided by 32 (R8, R50). Log entry 3. -/
  window : Nat
  /-- The model's own: what is still to happen, first first (R65, R170). Log entry 1. -/
  inputs : List Input
  /-- The model's own: what reads returned, newest first. Log entry 6. -/
  replies : List Reply
deriving DecidableEq, Repr

/-- Faults. There is none: the block never traps (R200, R206); its error events are STATUS bits, and the machine goes on. -/
inductive Fault where
deriving DecidableEq, Repr

/-- Refusals. -/
inductive Refusal where
  /-- Raised by an arm of exec whose instruction has no meaning yet. Safe. No arm raises it. -/
  | notModelled (mnemonic : String)
  /-- Raised by an access to the window that is not an aligned 32-bit access: implementation-defined, and "A model refuses such an
  access" (R54, I3). Safe. -/
  | unsupportedAccess
  /-- Raised by an access, and by a command, while reset is asserted: implementation-defined, "and a model refuses it"
  (R233, I6). Safe. -/
  | accessDuringReset
deriving DecidableEq, Repr

/-- The outcome of a step of this machine. -/
abbrev Result := Host.Outcome State Fault Refusal

/-- The state right after reset (R20, R230): all zero, nothing pending, and no input placed. -/
def State.reset : State where
  strict  := false
  din     := 0
  dout    := 0
  busy    := false
  outlen  := 0
  npad    := 0
  inv     := false
  errCmd  := false
  errOvr  := false
  errEnc  := false
  pend    := none
  inReset := false
  window  := 0
  inputs  := []
  replies := []

end Sys2Proof.Machine
end

