-- ==== Sys2Proof/Machine/Tables.lean ====
section
/-! DEFINITION. The two constant ROMs, ALPHABET and DECTAB (40_lookup_tables.md). They are no state: nothing changes them (R30). -/

namespace Sys2Proof.Machine

/-- PAD, the code unit of `=` (R100, R103). -/
def pad : Byte := 0x3D

/-- ALPHABET, 64 entries of 8 bits (R101): the code unit of the i-th of `A–Z, a–z, 0–9, +, /`. -/
def alphabet (i : Sextet) : Byte :=
  if i.toNat ≤ 25 then BitVec.ofNat 8 (0x41 + i.toNat)
  else if i.toNat ≤ 51 then BitVec.ofNat 8 (0x61 + (i.toNat - 26))
  else if i.toNat ≤ 61 then BitVec.ofNat 8 (0x30 + (i.toNat - 52))
  else if i.toNat = 62 then 0x2B
  else 0x2F

/-- Rows 0x0_ and 0x1_ of R104's table, and 0x8_ to 0xF_: no code unit of the alphabet. -/
def dectabBlankRow : List TabVal := List.replicate 16 80

/-- Rows 0x2_ and 0x3_ of R104's table. -/
def dectabDigitRows : List TabVal :=
  [80, 80, 80, 80, 80, 80, 80, 80, 80, 80, 80, 62, 80, 80, 80, 63] ++
  [52, 53, 54, 55, 56, 57, 58, 59, 60, 61, 80, 80, 80, 64, 80, 80]

/-- Rows 0x4_ and 0x5_ of R104's table. -/
def dectabUpperRows : List TabVal :=
  [80, 0, 1, 2, 3, 4, 5, 6, 7, 8, 9, 10, 11, 12, 13, 14] ++
  [15, 16, 17, 18, 19, 20, 21, 22, 23, 24, 25, 80, 80, 80, 80, 80]

/-- Rows 0x6_ and 0x7_ of R104's table. -/
def dectabLowerRows : List TabVal :=
  [80, 26, 27, 28, 29, 30, 31, 32, 33, 34, 35, 36, 37, 38, 39, 40] ++
  [41, 42, 43, 44, 45, 46, 47, 48, 49, 50, 51, 80, 80, 80, 80, 80]

/-- The lower half of the ROM; every entry of the upper half is 80. -/
def dectabRom : List TabVal :=
  dectabBlankRow ++ dectabBlankRow ++ dectabDigitRows ++ dectabUpperRows ++ dectabLowerRows

/-- DECTAB, 256 entries of 7 bits (R104): the 6-bit value of an alphabet character, 64 for PAD, 80 for the rest. -/
def dectab (c : Byte) : TabVal := dectabRom.getD c.toNat 80

/-- A sentinel: the entry's bit 6 is 1, so the code unit is outside the alphabet (R106). -/
def sentinel (v : TabVal) : Bool := v.getLsbD 6

/-- The code unit is an alphabet character: its entry is of the class `valid` (R106). -/
def inAlphabet (c : Byte) : Bool := !sentinel (dectab c)

end Sys2Proof.Machine
end

