-- ==== Sys2Proof/Machine/Ops.lean ====
section
/-! DEFINITION. The named operations on the registers: raising an event and clearing it, the busy gate of a write, acceptance,
reset, and what reads leave behind. -/

namespace Sys2Proof.Machine

/-! ## The fields of PEND (10_state.md R40) -/

/-- The count CNT of an encoder command (R80). -/
def EncCount.toNat : EncCount → Nat
  | .one => 1
  | .two => 2
  | .three => 3

/-- PEND.op, as R80 numbers it: 1 for enc, 2 for dec. -/
def Operation.op : Operation → BitVec 4
  | .enc _ => 1
  | .dec _ => 2

/-- PEND.cnt: 1..3 for enc, 0 for dec (R170). -/
def Operation.cnt : Operation → BitVec 2
  | .enc c => BitVec.ofNat 2 c.toNat
  | .dec _ => 0

/-- PEND.last: 0 for enc (R170). -/
def Operation.last : Operation → BitVec 1
  | .enc _ => 0
  | .dec l => BitVec.ofBool l

/-- What an instruction asks to accept (R170); none for nop, which is not accepted (R176). -/
def operationOf : Instr → Option Operation
  | .nop     => none
  | .enc1    => some (.enc .one)
  | .enc2    => some (.enc .two)
  | .enc3    => some (.enc .three)
  | .dec     => some (.dec false)
  | .decLast => some (.dec true)

/-! ## Events (60_exceptions.md) -/

/-- The code of an event, its STATUS bit number (R200). -/
def Event.code : Event → Nat
  | .errCmd => 8
  | .errOvr => 9
  | .errEnc => 10

/-- The sticky bit of an event (R27, R200). -/
def State.sticky (s : State) : Event → Bool
  | .errCmd => s.errCmd
  | .errOvr => s.errOvr
  | .errEnc => s.errEnc

/-- `raise`: set the event's sticky bit. This is the whole of taking an event: no state is saved, no mode changes and no control
is transferred (R200, R206). -/
def State.raise (s : State) : Event → State
  | .errCmd => { s with errCmd := true }
  | .errOvr => { s with errOvr := true }
  | .errEnc => { s with errEnc := true }

/-- A STATUS write of `v`: clear the sticky bits that `v` selects, and nothing else (20_memory.md R58). It is the only way back
from an event, but for reset (R207). -/
def State.clearSelected (v : Word) (s : State) : State :=
  { s with
    errCmd := s.errCmd && !v.getLsbD Event.errCmd.code
    errOvr := s.errOvr && !v.getLsbD Event.errOvr.code
    errEnc := s.errEnc && !v.getLsbD Event.errEnc.code }

/-! ## Writes -/

/-- The gate before a write to CMD, DIN or CONFIG: refused during reset (R233), dropped with ErrOvr while BUSY (R60, R205),
performed otherwise. -/
def gateWrite (s : State) (perform : State → Result) : Result :=
  if s.inReset then .refused .accessDuringReset
  else if s.busy then .next (s.raise .errOvr)
  else perform s

/-- `CONFIG.STRICT <- v[0]`; the other bits are ignored (R23, R51). -/
def State.writeConfig (v : Word) (s : State) : State := { s with strict := v.getLsbD 0 }

/-- `DIN <- v` (R24, R51). -/
def State.writeDin (v : Word) (s : State) : State := { s with din := v }

/-- `accept` (43_control.md R171): latch DIN and CONFIG.STRICT, and set BUSY. -/
def State.accept (o : Operation) (s : State) : State :=
  { s with pend := some { operation := o, din := s.din, strict := s.strict }, busy := true }

/-! ## Reset -/

/-- R230: every register to its reset value; a pending command is abandoned. -/
def State.resetRegisters (s : State) : State :=
  { s with
    strict := false, din := 0, dout := 0, busy := false, outlen := 0, npad := 0, inv := false
    errCmd := false, errOvr := false, errEnc := false, pend := none }

/-- Reset is asserted: R230 acts at once, and accesses are refused until the release (R233). -/
def State.assertReset (s : State) : State := { s.resetRegisters with inReset := true }

/-- Reset ends: the block is idle and waits for a host access (R232). -/
def State.releaseReset (s : State) : State := { s with inReset := false }

/-! ## The model's own fields -/

/-- BASE, a multiple of 32 (R50). -/
def State.base (s : State) : Nat := Config.windowBytes * s.window

/-- The inputs left after one is taken. -/
def State.setInputs (rest : List Input) (s : State) : State := { s with inputs := rest }

/-- A read's value goes back to the host that made it; the block itself is unchanged (R56). -/
def State.reply (host : Nat) (v : Word) (s : State) : State :=
  { s with replies := { host := host, value := v } :: s.replies }

end Sys2Proof.Machine
end

