-- ==== Sys2Proof/Machine/Operands.lean ====
section
/-! DEFINITION. The lanes of DIN and DOUT (30_encoding.md R84 to R87) and a command's result. -/

namespace Sys2Proof.Machine

/-- `(dout, outlen, npad, inv, encerr)`: the result of a command (41_encoder.md, 42_decoder.md). -/
structure CmdResult where
  dout   : Word
  outlen : BitVec 3
  npad   : BitVec 2
  inv    : Bool
  encErr : Bool
deriving DecidableEq, Repr

/-- Three bytes in message order. -/
structure Bytes3 where
  b0 : Byte
  b1 : Byte
  b2 : Byte
deriving DecidableEq, Repr

/-- Four code units in message order. -/
structure Chars4 where
  c0 : Byte
  c1 : Byte
  c2 : Byte
  c3 : Byte
deriving DecidableEq, Repr

/-- Four 6-bit indices. -/
structure Sextets where
  i0 : Sextet
  i1 : Sextet
  i2 : Sextet
  i3 : Sextet
deriving DecidableEq, Repr

/-- Four decoding-table values. -/
structure TabVals where
  v1 : TabVal
  v2 : TabVal
  v3 : TabVal
  v4 : TabVal
deriving DecidableEq, Repr

/-- Encoder input: b0 at DIN[23:16], b1 at DIN[15:8], b2 at DIN[7:0]; an absent lane is read as 0x00, and DIN[31:24] is never
read (R84). -/
def encLanes (cnt : EncCount) (din : Word) : Bytes3 where
  b0 := din.extractLsb' 16 8
  b1 := if 2 ≤ cnt.toNat then din.extractLsb' 8 8 else 0
  b2 := if cnt.toNat = 3 then din.extractLsb' 0 8 else 0

/-- Decoder input: s1 at DIN[31:24] down to s4 at DIN[7:0] (R85). -/
def decLanes (din : Word) : Chars4 where
  c0 := din.extractLsb' 24 8
  c1 := din.extractLsb' 16 8
  c2 := din.extractLsb' 8 8
  c3 := din.extractLsb' 0 8

/-- Encoder result in DOUT: c0 at DOUT[31:24] down to c3 at DOUT[7:0] (R86). -/
def packChars (c : Chars4) : Word := c.c0 ++ c.c1 ++ c.c2 ++ c.c3

/-- Decoder result in DOUT: byte0 at DOUT[23:16] down to byte2 at DOUT[7:0], and 0x00 at DOUT[31:24] (R87). It is also the
encoder's input layout (R88). -/
def packBytes (b : Bytes3) : Word := (0 : Byte) ++ b.b0 ++ b.b1 ++ b.b2

end Sys2Proof.Machine
end

