-- ==== Sys2Proof/Machine/Flags.lean ====
section
/-! DEFINITION. The decoder's conditions (42_decoder.md R142, R150) and the STATUS and CONFIG words (10_state.md R23, R27). -/

namespace Sys2Proof.Machine

/-- `p4`: the command is dec.last and the fourth character is PAD (R142). -/
def padFourth (last : Bool) (s : Chars4) : Bool := last && s.c3 == pad

/-- `p3`: in addition the third character is PAD (R142). -/
def padThird (last : Bool) (s : Chars4) : Bool := padFourth last s && s.c2 == pad

/-- `inv`: some lane holds a code unit outside the alphabet where no padding is allowed (R150). -/
def malformed (v : TabVals) (p3 p4 : Bool) : Bool :=
  sentinel v.v1 || sentinel v.v2 || (sentinel v.v3 && !p3) || (sentinel v.v4 && !p4)

/-- STATUS as software reads it (R27): BUSY at bit 0, OUTLEN at 3:1, NPAD at 5:4, INV at 6, ERR_CMD, ERR_OVR and ERR_ENC at 8, 9
and 10; the reserved bits read 0. -/
def State.statusWord (s : State) : Word :=
  (0 : BitVec 21) ++ BitVec.ofBool s.errEnc ++ BitVec.ofBool s.errOvr ++ BitVec.ofBool s.errCmd ++
    (0 : BitVec 1) ++ BitVec.ofBool s.inv ++ s.npad ++ s.outlen ++ BitVec.ofBool s.busy

/-- CONFIG as software reads it (R23): STRICT at bit 0; the reserved bits read 0. -/
def State.configWord (s : State) : Word := (BitVec.ofBool s.strict).setWidth 32

end Sys2Proof.Machine
end

