-- ==== Sys2Proof/Machine/Decoder.lean ====
section
/-! DEFINITION. base64_decoder (42_decoder.md): the inverse lookup, the 4-to-3 regrouper, padding detection, strict mode, and dec
and dec.last. -/

namespace Sys2Proof.Machine

/-- All four lookups, for every decoder command (R140). -/
def lookup4 (s : Chars4) : TabVals where
  v1 := dectab s.c0
  v2 := dectab s.c1
  v3 := dectab s.c2
  v4 := dectab s.c3

/-- `trunc_8` of a value wide enough for every shift of R141. -/
def trunc8 (v : BitVec 16) : Byte := v.setWidth 8

/-- A table value widened for the shifts of R141. -/
def widen (v : TabVal) : BitVec 16 := v.setWidth 16

/-- The 4-to-3 regrouper, by the source's formulas, each cut to 8 bits (R141). -/
def regroup4 (v : TabVals) : Bytes3 where
  b0 := trunc8 ((widen v.v1 <<< 2) ||| ((widen v.v2 &&& 0x30) >>> 4))
  b1 := trunc8 (((widen v.v2 &&& 0x0F) <<< 4) ||| ((widen v.v3 &&& 0x3C) >>> 2))
  b2 := trunc8 (((widen v.v3 &&& 0x03) <<< 6) ||| (widen v.v4 &&& 0x3F))

/-- Strict mode on a malformed group: nothing is emitted, and ErrEnc is reported (R151). -/
def strictRejection : CmdResult where
  dout   := 0
  outlen := 0
  npad   := 0
  inv    := true
  encErr := true

/-- A decoder command's result. Without LAST no padding is detected, so dec is the case `last = false` (R142 to R144). The value
for a malformed group in baseline mode is this hardware's own (R152); log entry 10. -/
def decResult (last : Bool) (din : Word) (strict : Bool) : CmdResult :=
  let s := decLanes din
  let v := lookup4 s
  let b := regroup4 v
  let p4 := padFourth last s
  let p3 := padThird last s
  let inv := malformed v p3 p4
  if strict && inv then strictRejection
  else if p3 then { dout := packBytes { b with b1 := 0, b2 := 0 }, outlen := 1, npad := 2, inv := inv, encErr := false }
  else if p4 then { dout := packBytes { b with b2 := 0 }, outlen := 2, npad := 1, inv := inv, encErr := false }
  else { dout := packBytes b, outlen := 3, npad := 0, inv := inv, encErr := false }

/-- `result(dec, din, strict)` (R143). -/
def resultDec (din : Word) (strict : Bool) : CmdResult := decResult false din strict

/-- `result(dec.last, din, strict)` (R144). -/
def resultDecLast (din : Word) (strict : Bool) : CmdResult := decResult true din strict

/-- A CMD write of dec (R143, R170). -/
def execDec (s : State) : Result := gateWrite s fun s => .next (s.accept (.dec false))

/-- A CMD write of dec.last (R144, R170). -/
def execDecLast (s : State) : Result := gateWrite s fun s => .next (s.accept (.dec true))

end Sys2Proof.Machine
end

