-- ==== Sys2Proof/Machine/Encoder.lean ====
section
/-! DEFINITION. base64_encoder (41_encoder.md): the 3-to-4 regrouper, the padding logic, and enc.1, enc.2 and enc.3. An encoder
command is accepted at its CMD write (R171); its result is written at completion (R173). -/

namespace Sys2Proof.Machine

/-- The 3-to-4 regrouper, by the source's formulas (R120). -/
def regroup3 (b : Bytes3) : Sextets where
  i0 := (b.b0 >>> 2).setWidth 6
  i1 := (((b.b0 &&& 0x3) <<< 4) ||| (b.b1 >>> 4)).setWidth 6
  i2 := (((b.b1 &&& 0xF) <<< 2) ||| (b.b2 >>> 6)).setWidth 6
  i3 := (b.b2 &&& 0x3F).setWidth 6

/-- `enc_chars`: `cnt + 1` alphabet characters, then `3 - cnt` padding characters (R121). -/
def encChars (cnt : EncCount) (din : Word) : Chars4 :=
  let i := regroup3 (encLanes cnt din)
  { c0 := alphabet i.i0
    c1 := alphabet i.i1
    c2 := if 2 ≤ cnt.toNat then alphabet i.i2 else pad
    c3 := if cnt.toNat = 3 then alphabet i.i3 else pad }

/-- An encoder command's result: four valid lanes, `3 - cnt` of them padding, and never an error (R86, R121, R127). -/
def encResult (cnt : EncCount) (din : Word) : CmdResult where
  dout   := packChars (encChars cnt din)
  outlen := 4
  npad   := BitVec.ofNat 2 (3 - cnt.toNat)
  inv    := false
  encErr := false

/-- `result(enc.1, din, strict)` (R124). -/
def resultEnc1 (din : Word) : CmdResult := encResult .one din

/-- `result(enc.2, din, strict)` (R123). -/
def resultEnc2 (din : Word) : CmdResult := encResult .two din

/-- `result(enc.3, din, strict)` (R122). -/
def resultEnc3 (din : Word) : CmdResult := encResult .three din

/-- A CMD write of enc.1 (R124, R170). -/
def execEnc1 (s : State) : Result := gateWrite s fun s => .next (s.accept (.enc .one))

/-- A CMD write of enc.2 (R123, R170). -/
def execEnc2 (s : State) : Result := gateWrite s fun s => .next (s.accept (.enc .two))

/-- A CMD write of enc.3 (R122, R170). -/
def execEnc3 (s : State) : Result := gateWrite s fun s => .next (s.accept (.enc .three))

end Sys2Proof.Machine
end

