-- ==== Sys2Proof/Machine/Control.lean ====
section
/-! DEFINITION. The control commands and the block's own step (43_control.md): nop, reserved words, and completion. -/

namespace Sys2Proof.Machine

/-- A CMD write of nop: no state changes (R176). -/
def execNop (s : State) : Result := gateWrite s fun s => .next s

/-- A CMD write of a reserved word: ErrCmd and no other effect (R175). -/
def execReserved (s : State) : Result := gateWrite s fun s => .next (s.raise .errCmd)

/-- The result function of each operation (R173). -/
def resultOf (o : Operation) (din : Word) (strict : Bool) : CmdResult :=
  match o with
  | .enc .one   => resultEnc1 din
  | .enc .two   => resultEnc2 din
  | .enc .three => resultEnc3 din
  | .dec false  => resultDec din strict
  | .dec true   => resultDecLast din strict

/-- The result of the pending command: a function of its record alone (R173, R174). -/
def PendRec.result (p : PendRec) : CmdResult := resultOf p.operation p.din p.strict

/-- The writes of a completion, in one atomic step; ERR_ENC is set or kept, never cleared (R173). -/
def State.finish (r : CmdResult) (s : State) : State :=
  { s with
    dout := r.dout, outlen := r.outlen, npad := r.npad, inv := r.inv
    errEnc := s.errEnc || r.encErr, busy := false, pend := none }

/-- The block's turn: the completion when a command is pending, and nothing otherwise (R170, R173; log entry 2). -/
def State.complete (s : State) : State :=
  match s.pend with
  | none   => s
  | some p => s.finish p.result

end Sys2Proof.Machine
end

