-- ==== Sys2Proof/Machine/Bus.lean ====
section
/-! DEFINITION. The access port: the register window (20_memory.md), and one input of a run performed (43_control.md R170). -/

namespace Sys2Proof.Machine

/-! ## The address map (R51) -/

/-- Offset of CMD. -/
abbrev offCmd : Nat := 0x00
/-- Offset of STATUS. -/
abbrev offStatus : Nat := 0x04
/-- Offset of CONFIG. -/
abbrev offConfig : Nat := 0x08
/-- Offset of DIN. -/
abbrev offDin : Nat := 0x0C
/-- Offset of DOUT. -/
abbrev offDout : Nat := 0x10

/-- What a read of an offset returns; CMD and the reserved offsets read 0 (R25, R51, R59). -/
def State.readReg (s : State) (off : Nat) : Word :=
  if off = offStatus then s.statusWord
  else if off = offConfig then s.configWord
  else if off = offDin then s.din
  else if off = offDout then s.dout
  else 0

/-- A write to CMD presents the word as a command, at once (R57, R170). -/
def writeCmd (w : Word) (s : State) : Result :=
  match decodeWord w with
  | .instr i    => exec i s
  | .reserved _ => execReserved s

/-- What a write of `v` to an offset does; DOUT and the reserved offsets ignore it (R26, R51, R58, R59, R60). -/
def writeReg (off : Nat) (v : Word) (s : State) : Result :=
  if off = offCmd then writeCmd v s
  else if off = offStatus then .next (s.clearSelected v)
  else if off = offConfig then gateWrite s fun s => .next (s.writeConfig v)
  else if off = offDin then gateWrite s fun s => .next (s.writeDin v)
  else .next s

/-! ## Accesses -/

/-- The access reaches some byte of the window at `base`; otherwise it is no access to the block (R50; log entry 7). -/
def Access.touches (a : Access) (base : Nat) : Bool :=
  a.addr < base + Config.windowBytes && base < a.addr + a.bytes

/-- The access is of the one defined form: 32 bits at an offset in the window that is a multiple of 4 (R54). -/
def Access.supported (a : Access) (base : Nat) : Bool :=
  a.bytes == Config.accessBytes && base ≤ a.addr && (a.addr - base) % 4 == 0

/-- One bus access, one atomic step (R55, R65). -/
def performAccess (a : Access) (s : State) : Result :=
  if !a.touches s.base then .next s
  else if s.inReset then .refused .accessDuringReset
  else if !a.supported s.base then .refused .unsupportedAccess
  else
    match a.kind with
    | .read    => .next (s.reply a.host (s.readReg (a.addr - s.base)))
    | .write v => writeReg (a.addr - s.base) v s

/-- One input of a run (R170). -/
def performInput (x : Input) (s : State) : Result :=
  match x with
  | .access a     => performAccess a s
  | .blockTurn    => .next s.complete
  | .assertReset  => .next s.assertReset
  | .releaseReset => .next s.releaseReset

/-- One turn of a run: the first input; and when none is left, the block's turn, so that a pending command always completes (R172;
log entry 2). -/
def takeTurn (s : State) : Result :=
  match s.inputs with
  | []        => .next s.complete
  | x :: rest => performInput x (s.setInputs rest)

/-- The 32-bit write of `v` by `host` to an offset of the window of `s` (R11). -/
def State.wordWrite (s : State) (host off : Nat) (v : Word) : Input :=
  .access { host := host, addr := s.base + off, bytes := Config.accessBytes, kind := .write v }

/-- The 32-bit read by `host` of an offset of the window of `s` (R11). -/
def State.wordRead (s : State) (host off : Nat) : Input :=
  .access { host := host, addr := s.base + off, bytes := Config.accessBytes, kind := .read }

end Sys2Proof.Machine
end

