-- ==== Sys2Proof/Machine/Step.lean ====
section
/-! DEFINITION. The one step of the machine, and a command word placed where the step takes its next one. -/

namespace Sys2Proof.Machine

/-- One step: the run's next input (43_control.md R170). -/
def step (s : State) : Host.Outcome State Fault Refusal := takeTurn s

/-- `s` with a host write of the command word to CMD as its next input. The block fetches nothing (20_memory.md R68): a command
comes from outside as such a write, and host 0 stands for any host (log entries 1 and 11). -/
def State.withFetchWord (s : State) (nbits w : Nat) : State :=
  s.setInputs (s.wordWrite 0 offCmd (tableWord nbits w) :: s.inputs)

end Sys2Proof.Machine
end

