-- ==== Sys2Proof/Machine/HostAsm.lean ====
section
/-! DEFINITION. Host assembly (30_encoding.md R91, R92): each line as the bus transactions it stands for. It is the host's side,
and no part of the block. -/

namespace Sys2Proof.Machine

/-- The mnemonic of a command (R91). -/
def mnemonic : Instr → String
  | .nop     => "nop"
  | .enc1    => "enc.1"
  | .enc2    => "enc.2"
  | .enc3    => "enc.3"
  | .dec     => "dec"
  | .decLast => "dec.last"

/-- A register by name, as host assembly writes it (R92). -/
inductive HostReg where
  | cmd | status | config | din | dout
deriving DecidableEq, Repr

/-- `off(REG)` (R51, R92). -/
def HostReg.off : HostReg → Nat
  | .cmd    => offCmd
  | .status => offStatus
  | .config => offConfig
  | .din    => offDin
  | .dout   => offDout

/-- One bus transaction on the window: `W off v` or `R off`. -/
inductive BusOp where
  | write (off : Nat) (v : Word)
  | read (off : Nat)
deriving DecidableEq, Repr

/-- A line of host assembly (R92). `poll n` is the loop that reads BUSY = 1 `n` times and then BUSY = 0; the number is not fixed
(R240), so the lines that poll carry it. -/
inductive HostOp where
  | st (r : HostReg) (v : Word)
  | ld (r : HostReg)
  | cmd (i : Instr)
  | poll (n : Nat)
  | enc3 (b0 b1 b2 : Byte) (n : Nat)
  | enc2 (b0 b1 : Byte) (n : Nat)
  | enc1 (b0 : Byte) (n : Nat)
  | decq (s1 s2 s3 s4 : Byte) (n : Nat)
  | decl (s1 s2 s3 s4 : Byte) (n : Nat)
  | clr
  | strict (k : Bool)
deriving DecidableEq, Repr

/-- `poll`: reads of STATUS, the last of which returns BUSY = 0. -/
def pollOps (n : Nat) : List BusOp := List.replicate (n + 1) (.read offStatus)

/-- One group: write DIN, write the command, poll, read DOUT (R92). -/
def groupOps (i : Instr) (din : Word) (n : Nat) : List BusOp :=
  [.write offDin din, .write offCmd (encode i)] ++ pollOps n ++ [.read offDout]

/-- The transactions of a line of host assembly (R92). -/
def HostOp.expand : HostOp → List BusOp
  | .st r v             => [.write r.off v]
  | .ld r               => [.read r.off]
  | .cmd i              => [.write offCmd (encode i)]
  | .poll n             => pollOps n
  | .enc3 b0 b1 b2 n    => groupOps .enc3 (packBytes ⟨b0, b1, b2⟩) n
  | .enc2 b0 b1 n       => groupOps .enc2 (packBytes ⟨b0, b1, 0⟩) n
  | .enc1 b0 n          => groupOps .enc1 (packBytes ⟨b0, 0, 0⟩) n
  | .decq s1 s2 s3 s4 n => groupOps .dec (packChars ⟨s1, s2, s3, s4⟩) n
  | .decl s1 s2 s3 s4 n => groupOps .decLast (packChars ⟨s1, s2, s3, s4⟩) n
  | .clr                => [.write offStatus 0x00000700]
  | .strict k           => [.write offConfig ((BitVec.ofBool k).setWidth 32)]

/-- A transaction as an input of the machine, made by `host` at the window of `s`. -/
def BusOp.toInput (s : State) (host : Nat) : BusOp → Input
  | .write off v => s.wordWrite host off v
  | .read off    => s.wordRead host off

/-- The inputs of one group's lines, with the completion after `early` of its polls; `late` + 1 polls follow it. Every place of
the completion that the rules allow between acceptance and the last poll is some `early` (43_control.md R172). -/
def groupInputs (s : State) (host : Nat) (i : Instr) (din : Word) (early late : Nat) : List Input :=
  let ops := groupOps i din (early + late)
  ((ops.take (2 + early)).map (BusOp.toInput s host)) ++ .blockTurn :: ((ops.drop (2 + early)).map (BusOp.toInput s host))

end Sys2Proof.Machine
end

