-- ==== Sys2Proof/Machine/Message.lean ====
section
/-! DEFINITION. The host's procedures for whole messages (41_encoder.md R125, 42_decoder.md R155): how a message is cut into
groups, and how the groups' results are put together. The block itself sees no message (R41). -/

namespace Sys2Proof.Machine

/-- The result of the command `i` on `din`; none for nop, which has none (R176). -/
def commandResult (i : Instr) (din : Word) (strict : Bool) : Option CmdResult :=
  (operationOf i).map fun o => resultOf o din strict

/-- The commands for a byte sequence, each with its DIN value (R125). -/
def encodeGroups : List Byte → List (Instr × Word)
  | []                    => []
  | [b0]                  => [(.enc1, packBytes ⟨b0, 0, 0⟩)]
  | [b0, b1]              => [(.enc2, packBytes ⟨b0, b1, 0⟩)]
  | b0 :: b1 :: b2 :: rest => (.enc3, packBytes ⟨b0, b1, b2⟩) :: encodeGroups rest

/-- The commands for a Base64 text, each with its DIN value; none when the length is not a multiple of 4: the host must not
present such a text (R155, 93_implementation_defined.md I4). -/
def decodeGroups : List Byte → Option (List (Instr × Word))
  | []                             => some []
  | [s1, s2, s3, s4]               => some [(.decLast, packChars ⟨s1, s2, s3, s4⟩)]
  | s1 :: s2 :: s3 :: s4 :: s5 :: rest =>
    (decodeGroups (s5 :: rest)).map ((.dec, packChars ⟨s1, s2, s3, s4⟩) :: ·)
  | _                              => none

/-- The four characters of an encoder result, c0 first (R86). -/
def charsOf (w : Word) : List Byte :=
  let c := decLanes w
  [c.c0, c.c1, c.c2, c.c3]

/-- The first OUTLEN bytes of a decoder result, from DOUT[23:16] downward (R87, R155). -/
def bytesOf (r : CmdResult) : List Byte :=
  [r.dout.extractLsb' 16 8, r.dout.extractLsb' 8 8, r.dout.extractLsb' 0 8].take r.outlen.toNat

/-- The text that the results of R125's commands make, in order. -/
def encodeMessage (bytes : List Byte) : List Byte :=
  (encodeGroups bytes).flatMap fun g => ((commandResult g.1 g.2 false).map fun r => charsOf r.dout).getD []

/-- The results of R155's commands in order; none for a text the host must not present. -/
def decodeResults (strict : Bool) (text : List Byte) : Option (List CmdResult) :=
  (decodeGroups text).map fun gs => gs.filterMap fun g => commandResult g.1 g.2 strict

/-- The bytes that R155's procedure appends. -/
def decodeMessage (strict : Bool) (text : List Byte) : Option (List Byte) :=
  (decodeResults strict text).map fun rs => rs.flatMap bytesOf

end Sys2Proof.Machine
end

