-- ==== Sys2Proof/Machine/System.lean ====
section
/-! DEFINITION. Several instances of the block side by side (00_scope.md R8 `N_INST`, 60_exceptions.md R213): each has its own
state and its own BASE, and they share nothing. -/

namespace Sys2Proof.Machine

/-- `N_INST` instances; the place in the list is the instance's number. -/
abbrev System := List State

/-- The bus hands an access to each instance whose window it reaches; to the others it is no access (20_memory.md R50). -/
def System.deliver (a : Access) (sys : System) : System :=
  sys.map fun s => if a.touches s.base then s.setInputs (s.inputs ++ [.access a]) else s

/-- Instance `k` takes a step; which instance moves next is free (R213). -/
def System.stepAt (k : Nat) (sys : System) : Host.Outcome System Fault Refusal :=
  match sys[k]? with
  | none => .next sys
  | some s =>
    match step s with
    | .next t    => .next (sys.set k t)
    | .fault f   => .fault f
    | .refused r => .refused r

end Sys2Proof.Machine
end

