-- ==== Sys2Proof/Safety.lean ====
section
/-! DEFINITION. The words in which claims speak of a run: when the block takes a write, the invariant of the state, when a run has
ended, and which Base64 texts are valid. -/

namespace Sys2Proof.Machine

/-- The next state, when the outcome is one. -/
def nextState (o : Result) : Option State :=
  match o with
  | .next s => some s
  | _       => none

/-- The refusal, when the outcome is one. -/
def refusal (o : Result) : Option Refusal :=
  match o with
  | .refused r => some r
  | _          => none

/-- `n` steps of a run, stopping at the first refusal; it is the host's `Core.run` of this machine (Laws/Step.lean). -/
def run : Nat → State → Result
  | 0, s => .next s
  | n + 1, s =>
    match step s with
    | .next t    => run n t
    | .fault f   => .fault f
    | .refused r => .refused r

/-- The block takes a CMD, DIN or CONFIG write: reset is not asserted, and BUSY = 0 (R60, R233). -/
abbrev State.Ready (s : State) : Prop := s.inReset = false ∧ s.busy = false

/-- A run has ended: no input is left, and no command is pending (43_control.md R178). -/
abbrev State.Ended (s : State) : Prop := s.inputs = [] ∧ s.pend = none

/-- The state with the host of every reply forgotten, and the word of every reply kept (R70). -/
def State.withoutHosts (s : State) : State := { s with replies := s.replies.map fun r => { r with host := 0 } }

/-- Every register holds its reset value (R20, R230). -/
def State.registersReset (s : State) : Bool :=
  !s.strict && s.din == 0 && s.dout == 0 && !s.busy && s.outlen == 0 && s.npad == 0 && !s.inv &&
    !s.errCmd && !s.errOvr && !s.errEnc && s.pend.isNone

/-- The copies in PEND equal the live DIN and CONFIG.STRICT (R40). -/
def State.copiesLive (s : State) : Bool :=
  match s.pend with
  | none   => true
  | some p => p.din == s.din && p.strict == s.strict

/-- DOUT, OUTLEN, NPAD and INV are the reset values or those of some result: OUTLEN is at most 4 and NPAD at most 2 (R27), four
characters of the alphabet or padding go with INV = 0 (R86, R130), and a decoder result has zero lanes beyond OUTLEN (R87). -/
def State.resultShaped (s : State) : Bool :=
  let c := decLanes s.dout
  match s.outlen.toNat with
  | 0 => s.dout == 0 && s.npad == 0
  | 1 => s.npad == 2 && c.c0 == 0 && c.c2 == 0 && c.c3 == 0
  | 2 => s.npad == 1 && c.c0 == 0 && c.c3 == 0
  | 3 => s.npad == 0 && c.c0 == 0
  | 4 =>
    !s.inv && inAlphabet c.c0 && inAlphabet c.c1 &&
      ((s.npad == 0 && inAlphabet c.c2 && inAlphabet c.c3) ||
        (s.npad == 1 && inAlphabet c.c2 && c.c3 == pad) ||
        (s.npad == 2 && c.c2 == pad && c.c3 == pad))
  | _ => false

/-- The invariant that every step keeps. -/
structure State.Inv (s : State) : Prop where
  /-- STATUS.BUSY = 1 exactly when PEND ≠ none (R40). -/
  busy_iff_pend : s.busy = s.pend.isSome
  /-- The latched operands are the live ones (R40). -/
  copies_live : s.copiesLive = true
  /-- The result registers are shaped as some result (R27, R86, R87). -/
  result_shaped : s.resultShaped = true
  /-- While reset is asserted the registers stay at their reset values (R230). -/
  held_in_reset : s.inReset = true → s.registersReset = true

/-- A Base64 text is valid by §7's conditions: its length is a multiple of 4, and it is alphabet characters followed by at most
two padding characters (42_decoder.md R150, R156; 92_eei_decisions.md D14). -/
def ValidText (text : List Byte) : Prop :=
  text.length % 4 = 0 ∧
    ∃ body n, n ≤ 2 ∧ text = body ++ List.replicate n pad ∧ ∀ c ∈ body, ∃ i, alphabet i = c

end Sys2Proof.Machine
end

