-- ==== Sys2Proof/Certificates/Slice0/Obligations.lean ====
section
/-! DEFINITION. The statements for the provers, from the numbered rules of spec/. A statement about a step writes the input it
is about at the head of `inputs`, so it holds of every run at any place. Where it says `= .next` with a record update of the
state, every field not named is unchanged: that is the frame. -/

open Sys2Proof Sys2Proof.Machine

/-! ## Command words -/

/-- R82, R83: every word decodes to an instruction exactly when it is that instruction's word. -/
def Obligations.DecodeEncodeAgree : Prop :=
  ∀ (w : Word) (i : Instr), decodeWord w = .instr i ↔ w = encode i

/-- R82: exactly six command words are defined, each matched whole. Every other word is reserved, 0x00000001 among them. -/
def Obligations.ExactlySixCommandWords : Prop :=
  (∀ w : Word,
    (decodeWord w = .instr .nop ↔ w = 0x00000000) ∧
    (decodeWord w = .instr .enc1 ↔ w = 0x00000011) ∧
    (decodeWord w = .instr .enc2 ↔ w = 0x00000021) ∧
    (decodeWord w = .instr .enc3 ↔ w = 0x00000031) ∧
    (decodeWord w = .instr .dec ↔ w = 0x00000002) ∧
    (decodeWord w = .instr .decLast ↔ w = 0x00000042) ∧
    ((∃ why, decodeWord w = .reserved why) ↔
      w ∉ [0x00000000, 0x00000011, 0x00000021, 0x00000031, 0x00000002, 0x00000042])) ∧
  ∃ why, decodeWord 0x00000001 = .reserved why

/-- A sanity check of the decoder on words written bit by bit from R80, as opcode-table words. -/
def Obligations.DecodeOfWrittenWords : Prop :=
  decodeTableWord 32 0b00000000000000000000000000000000 = some .nop ∧
  decodeTableWord 32 0b00000000000000000000000000010001 = some .enc1 ∧
  decodeTableWord 32 0b00000000000000000000000000100001 = some .enc2 ∧
  decodeTableWord 32 0b00000000000000000000000000110001 = some .enc3 ∧
  decodeTableWord 32 0b00000000000000000000000000000010 = some .dec ∧
  decodeTableWord 32 0b00000000000000000000000001000010 = some .decLast ∧
  decodeTableWord 32 0b00000000000000000000000000000001 = none

/-- R89: each class of reserved words is reserved. -/
def Obligations.ReservedClassesRejected : Prop :=
  ∀ w : Word,
    (w.extractLsb' 7 25 ≠ 0 ∨
      3 ≤ (w.extractLsb' 0 4).toNat ∨
      (w.extractLsb' 0 4 = 1 ∧ w.extractLsb' 4 2 = 0) ∨
      (w.extractLsb' 0 4 = 1 ∧ w.getLsbD 6 = true) ∨
      ((w.extractLsb' 0 4 = 2 ∨ w.extractLsb' 0 4 = 0) ∧ w.extractLsb' 4 2 ≠ 0) ∨
      (w.extractLsb' 0 4 = 0 ∧ w.getLsbD 6 = true)) ↔
    ∃ why, decodeWord w = .reserved why

/-! ## The two tables -/

/-- R102: the 64 entries are distinct, none is PAD, and every character of an encoder result is PAD or an entry. -/
def Obligations.AlphabetClosure : Prop :=
  (∀ i j : Sextet, alphabet i = alphabet j → i = j) ∧
  (∀ i : Sextet, alphabet i ≠ pad) ∧
  ∀ (cnt : EncCount) (din : Word), ∀ c ∈ charsOf (encResult cnt din).dout, c ≠ pad → ∃ i, alphabet i = c

/-- R104: DECTAB maps an alphabet character to its index, PAD to 64, and every other code unit to 80. -/
def Obligations.DectabDefinition : Prop :=
  ∀ c : Byte,
    (∀ i : Sextet, alphabet i = c → (dectab c).toNat = i.toNat) ∧
    (c = pad → dectab c = 64) ∧
    ((∀ i : Sextet, alphabet i ≠ c) → c ≠ pad → dectab c = 80)

/-- R105: DECTAB inverts ALPHABET, and the padding sentinel differs from the invalid one and from every valid value. -/
def Obligations.DectabInvertsAlphabet : Prop :=
  (∀ i : Sextet, dectab (alphabet i) = i.setWidth 7) ∧ dectab pad = 64 ∧
  dectab pad ≠ 80 ∧ ∀ i : Sextet, dectab pad ≠ dectab (alphabet i)

/-- R106: every entry is in exactly one class, and bit 6 is 1 exactly for the two sentinels. -/
def Obligations.DectabClasses : Prop :=
  ∀ c : Byte,
    ((dectab c).toNat ≤ 63 ∨ dectab c = 64 ∨ dectab c = 80) ∧
    ((dectab c).getLsbD 6 = true ↔ dectab c = 64 ∨ dectab c = 80) ∧
    ((dectab c).toNat ≤ 63 ↔ (dectab c).getLsbD 6 = false)

/-! ## The encoder -/

/-- R120: the four indices are the source's formulas, on natural numbers so that no shift loses a bit; equivalently, they are the
24 bits of the three bytes, in order. -/
def Obligations.RegroupThreeToFour : Prop :=
  ∀ b : Bytes3,
    (regroup3 b).i0.toNat = b.b0.toNat >>> 2 ∧
    (regroup3 b).i1.toNat = ((b.b0.toNat &&& 0x3) <<< 4) ||| (b.b1.toNat >>> 4) ∧
    (regroup3 b).i2.toNat = ((b.b1.toNat &&& 0xF) <<< 2) ||| (b.b2.toNat >>> 6) ∧
    (regroup3 b).i3.toNat = b.b2.toNat &&& 0x3F ∧
    (regroup3 b).i0 ++ (regroup3 b).i1 ++ (regroup3 b).i2 ++ (regroup3 b).i3 = b.b0 ++ b.b1 ++ b.b2 ∧
    (regroup3 b).i0 = b.b0.extractLsb' 2 6 ∧
    (regroup3 b).i1 = b.b0.extractLsb' 0 2 ++ b.b1.extractLsb' 4 4 ∧
    (regroup3 b).i2 = b.b1.extractLsb' 0 4 ++ b.b2.extractLsb' 6 2 ∧
    (regroup3 b).i3 = b.b2.extractLsb' 0 6

/-- R122: enc.3 is accepted when the block is ready; its completion, at any later turn, writes four alphabet characters, the
indices being the 24 low bits of DIN in order. While BUSY the write is dropped with ErrOvr. -/
def Obligations.Enc3EncodesTriple : Prop :=
  encode .enc3 = 0x00000031 ∧
  (∀ s : State, s.Ready → ∃ t,
    exec .enc3 s = .next t ∧
    t = { s with busy := true, pend := some { operation := .enc .three, din := s.din, strict := s.strict } } ∧
    ∀ rest, step (t.setInputs (.blockTurn :: rest)) = .next { s with
      dout := alphabet (s.din.extractLsb' 18 6) ++ alphabet (s.din.extractLsb' 12 6) ++
        alphabet (s.din.extractLsb' 6 6) ++ alphabet (s.din.extractLsb' 0 6)
      outlen := 4, npad := 0, inv := false, busy := false, pend := none, inputs := rest }) ∧
  ∀ s : State, s.inReset = false → s.busy = true → exec .enc3 s = .next { s with errOvr := true }

/-- R123: enc.2, as R122, with b2 read as 0x00 and one PAD. -/
def Obligations.Enc2EncodesTwoBytes : Prop :=
  encode .enc2 = 0x00000021 ∧
  (∀ s : State, s.Ready → ∃ t,
    exec .enc2 s = .next t ∧
    t = { s with busy := true, pend := some { operation := .enc .two, din := s.din, strict := s.strict } } ∧
    ∀ rest, step (t.setInputs (.blockTurn :: rest)) = .next { s with
      dout := alphabet (s.din.extractLsb' 18 6) ++ alphabet (s.din.extractLsb' 12 6) ++
        alphabet (s.din.extractLsb' 8 4 ++ (0 : BitVec 2)) ++ pad
      outlen := 4, npad := 1, inv := false, busy := false, pend := none, inputs := rest }) ∧
  ∀ s : State, s.inReset = false → s.busy = true → exec .enc2 s = .next { s with errOvr := true }

/-- R124: enc.1, as R122, with b1 and b2 read as 0x00 and two PADs. -/
def Obligations.Enc1EncodesOneByte : Prop :=
  encode .enc1 = 0x00000011 ∧
  (∀ s : State, s.Ready → ∃ t,
    exec .enc1 s = .next t ∧
    t = { s with busy := true, pend := some { operation := .enc .one, din := s.din, strict := s.strict } } ∧
    ∀ rest, step (t.setInputs (.blockTurn :: rest)) = .next { s with
      dout := alphabet (s.din.extractLsb' 18 6) ++ alphabet (s.din.extractLsb' 16 2 ++ (0 : BitVec 4)) ++
        pad ++ pad
      outlen := 4, npad := 2, inv := false, busy := false, pend := none, inputs := rest }) ∧
  ∀ s : State, s.inReset = false → s.busy = true → exec .enc1 s = .next { s with errOvr := true }

/-- R128: enc.3 is a bijection from the 24 low bits of DIN to quadruples of alphabet characters; enc.2 and enc.1 are injective on
the bytes they read. -/
def Obligations.EncoderInjective : Prop :=
  (∀ d e : Word, (resultEnc3 d).dout = (resultEnc3 e).dout → d.extractLsb' 0 24 = e.extractLsb' 0 24) ∧
  (∀ i0 i1 i2 i3 : Sextet, ∃ d : Word,
    (resultEnc3 d).dout = packChars ⟨alphabet i0, alphabet i1, alphabet i2, alphabet i3⟩) ∧
  (∀ d e : Word, (resultEnc2 d).dout = (resultEnc2 e).dout → d.extractLsb' 8 16 = e.extractLsb' 8 16) ∧
  (∀ d e : Word, (resultEnc1 d).dout = (resultEnc1 e).dout → d.extractLsb' 16 8 = e.extractLsb' 16 8)

/-! ## The decoder -/

/-- R141: the three bytes are the source's formulas, on natural numbers, each cut to 8 bits; equivalently, they are the low six
bits of the four table values, in order. The two spellings of byte0's second term agree. -/
def Obligations.RegroupFourToThree : Prop :=
  (∀ v : TabVal, (v >>> 4) &&& 0x3 = (v &&& 0x30) >>> 4) ∧
  ∀ v : TabVals,
    (regroup4 v).b0.toNat = ((v.v1.toNat <<< 2) ||| ((v.v2.toNat &&& 0x30) >>> 4)) % 256 ∧
    (regroup4 v).b1.toNat = (((v.v2.toNat &&& 0x0F) <<< 4) ||| ((v.v3.toNat &&& 0x3C) >>> 2)) % 256 ∧
    (regroup4 v).b2.toNat = (((v.v3.toNat &&& 0x03) <<< 6) ||| (v.v4.toNat &&& 0x3F)) % 256 ∧
    (regroup4 v).b0 = v.v1.extractLsb' 0 6 ++ v.v2.extractLsb' 4 2 ∧
    (regroup4 v).b1 = v.v2.extractLsb' 0 4 ++ v.v3.extractLsb' 2 4 ∧
    (regroup4 v).b2 = v.v3.extractLsb' 0 2 ++ v.v4.extractLsb' 0 6

/-- R142: PAD in lane 4 of a final group gives two bytes and NPAD 1; PAD in lanes 3 and 4 gives one byte and NPAD 2; else, and
always under dec, three bytes and NPAD 0. Comparing with PAD is testing the entry for 64. -/
def Obligations.PaddingDetection : Prop :=
  (∀ din : Word,
    let r := resultDecLast din false
    let b := regroup4 (lookup4 (decLanes din))
    (din.extractLsb' 0 8 = pad ∧ din.extractLsb' 8 8 = pad →
      r.outlen = 1 ∧ r.npad = 2 ∧ r.dout = packBytes ⟨b.b0, 0, 0⟩) ∧
    (din.extractLsb' 0 8 = pad ∧ din.extractLsb' 8 8 ≠ pad →
      r.outlen = 2 ∧ r.npad = 1 ∧ r.dout = packBytes ⟨b.b0, b.b1, 0⟩) ∧
    (din.extractLsb' 0 8 ≠ pad → r.outlen = 3 ∧ r.npad = 0 ∧ r.dout = packBytes b) ∧
    (resultDec din false).outlen = 3 ∧ (resultDec din false).npad = 0 ∧ (resultDec din false).dout = packBytes b) ∧
  ∀ c : Byte, c = pad ↔ dectab c = 64

/-- R150: `inv` is the rule's formula on bit 6 of the four table values; it is 1 exactly when some lane holds a code unit outside
the alphabet and is not an allowed padding position of a final group. It does not depend on the mode. -/
def Obligations.MalformedExactly : Prop :=
  ∀ (last : Bool) (din : Word) (strict : Bool),
    let Outside := fun c : Byte => ∀ i : Sextet, alphabet i ≠ c
    let s1 := din.extractLsb' 24 8
    let s2 := din.extractLsb' 16 8
    let s3 := din.extractLsb' 8 8
    let s4 := din.extractLsb' 0 8
    let p4 := last && s4 == pad
    let p3 := p4 && s3 == pad
    (decResult last din strict).inv = ((dectab s1).getLsbD 6 || (dectab s2).getLsbD 6 ||
      ((dectab s3).getLsbD 6 && !p3) || ((dectab s4).getLsbD 6 && !p4)) ∧
    ((decResult last din strict).inv = true ↔
      Outside s1 ∨ Outside s2 ∨
      (Outside s3 ∧ ¬(last = true ∧ s3 = pad ∧ s4 = pad)) ∨
      (Outside s4 ∧ ¬(last = true ∧ s4 = pad)))

/-- R151: a decoder command accepted in strict mode whose group is malformed completes with DOUT = 0, OUTLEN = 0, NPAD = 0, INV = 1
and ERR_ENC set, and nothing else changes; a group that is not malformed gives the baseline result. -/
def Obligations.StrictMode : Prop :=
  (∀ (s : State) (last : Bool) (din : Word) (rest : List Input),
    s.pend = some { operation := .dec last, din := din, strict := true } → (decResult last din false).inv = true →
    step (s.setInputs (.blockTurn :: rest)) = .next { s with
      dout := 0x00000000, outlen := 0, npad := 0, inv := true, errEnc := true
      busy := false, pend := none, inputs := rest }) ∧
  ∀ (last : Bool) (din : Word),
    (decResult last din false).inv = false → decResult last din true = decResult last din false

/-- R152: a decoder command accepted in baseline mode completes with the datapath's value for every input, malformed or not, sets
INV to `inv`, and never sets ERR_ENC. -/
def Obligations.BaselineMode : Prop :=
  ∀ (s : State) (last : Bool) (din : Word) (rest : List Input),
    s.pend = some { operation := .dec last, din := din, strict := false } →
    let v := lookup4 (decLanes din)
    let b := regroup4 v
    let p3 := padThird last (decLanes din)
    let p4 := padFourth last (decLanes din)
    step (s.setInputs (.blockTurn :: rest)) = .next { s with
      dout := packBytes (if p3 then ⟨b.b0, 0, 0⟩ else if p4 then ⟨b.b0, b.b1, 0⟩ else b)
      outlen := if p3 then 1 else if p4 then 2 else 3
      npad := if p3 then 2 else if p4 then 1 else 0
      inv := malformed v p3 p4, busy := false, pend := none, inputs := rest }

/-- R153: the unused low bits of a padded final group are not checked, in either mode: the group is not malformed, and it decodes
as if those bits were 0. -/
def Obligations.NonCanonicalBitsIgnored : Prop :=
  ∀ (i1 i2 i3 : Sextet) (strict : Bool),
    (resultDecLast (packChars ⟨alphabet i1, alphabet i2, pad, pad⟩) strict).inv = false ∧
    resultDecLast (packChars ⟨alphabet i1, alphabet i2, pad, pad⟩) strict =
      resultDecLast (packChars ⟨alphabet i1, alphabet (i2 &&& 0x30), pad, pad⟩) strict ∧
    (resultDecLast (packChars ⟨alphabet i1, alphabet i2, alphabet i3, pad⟩) strict).inv = false ∧
    resultDecLast (packChars ⟨alphabet i1, alphabet i2, alphabet i3, pad⟩) strict =
      resultDecLast (packChars ⟨alphabet i1, alphabet i2, alphabet (i3 &&& 0x3C), pad⟩) strict

/-- R143: dec is accepted when the block is ready; its completion writes three bytes and `inv`, or, in strict mode on a malformed
group, the rejection with ERR_ENC. While BUSY the write is dropped with ErrOvr. -/
def Obligations.DecDecodesQuadruple : Prop :=
  encode .dec = 0x00000002 ∧
  (∀ s : State, s.Ready → ∃ t,
    exec .dec s = .next t ∧
    t = { s with busy := true, pend := some { operation := .dec false, din := s.din, strict := s.strict } } ∧
    ∀ rest,
      let v1 := dectab (s.din.extractLsb' 24 8)
      let v2 := dectab (s.din.extractLsb' 16 8)
      let v3 := dectab (s.din.extractLsb' 8 8)
      let v4 := dectab (s.din.extractLsb' 0 8)
      let inv := v1.getLsbD 6 || v2.getLsbD 6 || v3.getLsbD 6 || v4.getLsbD 6
      let rejected := s.strict && inv
      step (t.setInputs (.blockTurn :: rest)) = .next { s with
        dout := if rejected then 0 else
          (0 : Byte) ++ (v1.extractLsb' 0 6 ++ v2.extractLsb' 4 2 : Byte) ++
            (v2.extractLsb' 0 4 ++ v3.extractLsb' 2 4 : Byte) ++ (v3.extractLsb' 0 2 ++ v4.extractLsb' 0 6 : Byte)
        outlen := if rejected then 0 else 3
        npad := 0, inv := inv, errEnc := s.errEnc || rejected, busy := false, pend := none, inputs := rest }) ∧
  ∀ s : State, s.inReset = false → s.busy = true → exec .dec s = .next { s with errOvr := true }

/-- R144: dec.last, as R143, with the padding of a final group detected. When lane 4 is not PAD its result is that of dec, INV
included, in either mode. -/
def Obligations.DecLastDecodesFinalGroup : Prop :=
  encode .decLast = 0x00000042 ∧
  (∀ s : State, s.Ready → ∃ t,
    exec .decLast s = .next t ∧
    t = { s with busy := true, pend := some { operation := .dec true, din := s.din, strict := s.strict } } ∧
    ∀ rest,
      let v1 := dectab (s.din.extractLsb' 24 8)
      let v2 := dectab (s.din.extractLsb' 16 8)
      let v3 := dectab (s.din.extractLsb' 8 8)
      let v4 := dectab (s.din.extractLsb' 0 8)
      let byte0 : Byte := v1.extractLsb' 0 6 ++ v2.extractLsb' 4 2
      let byte1 : Byte := v2.extractLsb' 0 4 ++ v3.extractLsb' 2 4
      let byte2 : Byte := v3.extractLsb' 0 2 ++ v4.extractLsb' 0 6
      let p4 := s.din.extractLsb' 0 8 == pad
      let p3 := p4 && s.din.extractLsb' 8 8 == pad
      let inv := v1.getLsbD 6 || v2.getLsbD 6 || (v3.getLsbD 6 && !p3) || (v4.getLsbD 6 && !p4)
      let rejected := s.strict && inv
      step (t.setInputs (.blockTurn :: rest)) = .next { s with
        dout := if rejected then 0
          else if p3 then (0 : Byte) ++ byte0 ++ (0 : Byte) ++ (0 : Byte)
          else if p4 then (0 : Byte) ++ byte0 ++ byte1 ++ (0 : Byte)
          else (0 : Byte) ++ byte0 ++ byte1 ++ byte2
        outlen := if rejected then 0 else if p3 then 1 else if p4 then 2 else 3
        npad := if rejected then 0 else if p3 then 2 else if p4 then 1 else 0
        inv := inv, errEnc := s.errEnc || rejected, busy := false, pend := none, inputs := rest }) ∧
  (∀ s : State, s.inReset = false → s.busy = true → exec .decLast s = .next { s with errOvr := true }) ∧
  ∀ (din : Word) (strict : Bool), din.extractLsb' 0 8 ≠ pad → resultDecLast din strict = resultDec din strict

/-! ## Round trips -/

/-- R130: every encoder output is well formed: enc.3's for both decoder commands, enc.2's and enc.1's for dec.last. The padding
stands in the last `3 - cnt` lanes and nowhere else. -/
def Obligations.EncoderOutputWellFormed : Prop :=
  ∀ (cnt : EncCount) (din : Word) (strict : Bool),
    (resultDecLast (encResult cnt din).dout strict).inv = false ∧
    (cnt = .three → (resultDec (encResult cnt din).dout strict).inv = false) ∧
    (charsOf (encResult cnt din).dout).drop (cnt.toNat + 1) = List.replicate (3 - cnt.toNat) pad ∧
    ∀ c ∈ (charsOf (encResult cnt din).dout).take (cnt.toNat + 1), ∃ i, alphabet i = c

/-- R160: decoding an encoder result gives the bytes back, in either mode. -/
def Obligations.GroupRoundTrip : Prop :=
  ∀ (b0 b1 b2 : Byte) (strict : Bool),
    (∀ last, decResult last (resultEnc3 (packBytes ⟨b0, b1, b2⟩)).dout strict =
      { dout := packBytes ⟨b0, b1, b2⟩, outlen := 3, npad := 0, inv := false, encErr := false }) ∧
    resultDecLast (resultEnc2 (packBytes ⟨b0, b1, 0⟩)).dout strict =
      { dout := packBytes ⟨b0, b1, 0⟩, outlen := 2, npad := 1, inv := false, encErr := false } ∧
    resultDecLast (resultEnc1 (packBytes ⟨b0, 0, 0⟩)).dout strict =
      { dout := packBytes ⟨b0, 0, 0⟩, outlen := 1, npad := 2, inv := false, encErr := false }

/-- R161: the bytes of a well-formed unpadded quadruple encode back to it, DOUT written unchanged to DIN (R88); "Zh==" decodes to
a byte that encodes to "Zg==". -/
def Obligations.QuadrupleRoundTrip : Prop :=
  (∀ (i0 i1 i2 i3 : Sextet) (strict : Bool),
    let q := packChars ⟨alphabet i0, alphabet i1, alphabet i2, alphabet i3⟩
    (resultDec q strict).inv = false ∧ (resultEnc3 (resultDec q strict).dout).dout = q) ∧
  (resultEnc1 (resultDecLast 0x5A683D3D false).dout).dout = 0x5A673D3D

/-- R125, R155, R160: decoding a whole encoded message gives its bytes back, in either mode, with INV = 0 throughout. -/
def Obligations.MessageRoundTrip : Prop :=
  ∀ (bytes : List Byte) (strict : Bool),
    decodeMessage strict (encodeMessage bytes) = some bytes ∧
    ∃ rs, decodeResults strict (encodeMessage bytes) = some rs ∧ ∀ r ∈ rs, r.inv = false ∧ r.encErr = false

/-- R126: the encoded text has 4 * ceil(L/3) characters and ends in 0, 2 or 1 padding characters, with none elsewhere. -/
def Obligations.EncodedLengthAndPadding : Prop :=
  encodeMessage [] = [] ∧
  ∀ bytes : List Byte,
    (encodeMessage bytes).length = 4 * ((bytes.length + 2) / 3) ∧
    ∃ body, encodeMessage bytes = body ++ List.replicate ((3 - bytes.length % 3) % 3) pad ∧ pad ∉ body

/-- R156: a text is valid exactly when every command of its sequence completes with INV = 0; in strict mode, exactly when no
command reports ErrEnc. -/
def Obligations.TextValidExactly : Prop :=
  ∀ text : List Byte,
    (∀ strict, ValidText text ↔ ∃ rs, decodeResults strict text = some rs ∧ ∀ r ∈ rs, r.inv = false) ∧
    (ValidText text ↔ ∃ rs, decodeResults true text = some rs ∧ ∀ r ∈ rs, r.encErr = false)

/-! ## The lifecycle of a command -/

/-- R176: nop changes nothing when the block is ready; while BUSY it is dropped with ErrOvr. With ERR_CMD = 0 no other CMD write
leaves the state as it was (log entry 12 says why the bit matters). -/
def Obligations.NopChangesNothing : Prop :=
  encode .nop = 0x00000000 ∧
  (∀ (s : State) (w : Word), s.Ready → s.errCmd = false → (writeCmd w s = .next s ↔ w = 0x00000000)) ∧
  (∀ s : State, s.Ready → exec .nop s = .next s) ∧
  ∀ s : State, s.inReset = false → s.busy = true → exec .nop s = .next { s with errOvr := true }

/-- R171: acceptance latches DIN and CONFIG.STRICT, sets BUSY, and changes nothing else. -/
def Obligations.AcceptanceLatchesOperands : Prop :=
  ∀ (i : Instr) (o : Operation) (s : State), operationOf i = some o → s.Ready →
    exec i s = .next { s with pend := some { operation := o, din := s.din, strict := s.strict }, busy := true }

/-- R40, R170: the pending record's op, cnt and last are the OP, CNT and LAST of the command word. -/
def Obligations.PendingFieldsAreTheWords : Prop :=
  ∀ (i : Instr) (o : Operation), operationOf i = some o →
    o.op = (encode i).extractLsb' 0 4 ∧ o.cnt = (encode i).extractLsb' 4 2 ∧ o.last = (encode i).extractLsb' 6 1

/-- R173: the block's turn, when a command is pending, writes its result in one step and changes nothing else. -/
def Obligations.CompletionWritesResult : Prop :=
  ∀ (s : State) (p : PendRec) (rest : List Input), s.pend = some p →
    step (s.setInputs (.blockTurn :: rest)) = .next { s with
      dout := p.result.dout, outlen := p.result.outlen, npad := p.result.npad, inv := p.result.inv
      errEnc := s.errEnc || p.result.encErr, busy := false, pend := none, inputs := rest }

/-- R172 and log entry 2: when no input is left, a pending command completes at the next step; when nothing is pending, the block's
turn changes nothing. The second half is the model's choice. -/
def Obligations.TurnWithoutInputs : Prop :=
  (∀ (s : State) (p : PendRec), s.pend = some p → s.inputs = [] →
    step s = .next { s with
      dout := p.result.dout, outlen := p.result.outlen, npad := p.result.npad, inv := p.result.inv
      errEnc := s.errEnc || p.result.encErr, busy := false, pend := none }) ∧
  (∀ s : State, s.Ended → step s = .next s) ∧
  ∀ (s : State) (rest : List Input), s.pend = none →
    step (s.setInputs (.blockTurn :: rest)) = .next (s.setInputs rest)

/-- R175: a reserved word raises ErrCmd at once and has no other effect; with BUSY = 1 it raises ErrOvr instead. -/
def Obligations.ReservedWordRaisesErrCmd : Prop :=
  ∀ (s : State) (host : Nat) (w : Word) (why : ReservedReason) (rest : List Input),
    decodeWord w = .reserved why → s.inReset = false →
    step (s.setInputs (s.wordWrite host 0x00 w :: rest)) =
      if s.busy then .next { s with errOvr := true, inputs := rest }
      else .next { s with errCmd := true, inputs := rest }

/-- R60: a write to CMD, DIN or CONFIG is dropped with ErrOvr while BUSY, whatever its value, and performed otherwise. -/
def Obligations.BusyDropsWrites : Prop :=
  ∀ (s : State) (host : Nat) (v : Word) (rest : List Input), s.inReset = false →
    (s.busy = true → ∀ off ∈ [0x00, 0x08, 0x0C],
      step (s.setInputs (s.wordWrite host off v :: rest)) = .next { s with errOvr := true, inputs := rest }) ∧
    (s.busy = false →
      step (s.setInputs (s.wordWrite host 0x00 v :: rest)) = writeCmd v (s.setInputs rest) ∧
      step (s.setInputs (s.wordWrite host 0x08 v :: rest)) = .next { s with strict := v.getLsbD 0, inputs := rest } ∧
      step (s.setInputs (s.wordWrite host 0x0C v :: rest)) = .next { s with din := v, inputs := rest })

/-- R68, R170: a step whose next input is a CMD write of a word that decodes to an instruction is exec of that instruction, after
the input is taken off the list; `withFetchWord` places exactly such an input. -/
def Obligations.StepRunsDecodedInstruction : Prop :=
  (∀ (s : State) (host : Nat) (w : Word) (i : Instr) (rest : List Input), decodeWord w = .instr i →
    step (s.setInputs (s.wordWrite host 0x00 w :: rest)) = exec i (s.setInputs rest)) ∧
  ∀ (s : State) (i : Instr), step (s.withFetchWord 32 (encode i).toNat) = exec i s

/-- R27, R171: a CMD write never changes CONFIG, DIN, DOUT, OUTLEN, NPAD, INV, ERR_CMD or ERR_ENC, nor what a read of any register
but STATUS returns; it changes ERR_OVR only while BUSY, and PEND and BUSY only by acceptance. -/
def Obligations.CommandFrame : Prop :=
  ∀ (i : Instr) (s t : State), exec i s = .next t →
    t.strict = s.strict ∧ t.din = s.din ∧ t.dout = s.dout ∧ t.outlen = s.outlen ∧ t.npad = s.npad ∧ t.inv = s.inv ∧
    t.errCmd = s.errCmd ∧ t.errEnc = s.errEnc ∧ t.inReset = s.inReset ∧ t.window = s.window ∧
    t.inputs = s.inputs ∧ t.replies = s.replies ∧
    (∀ off, off ≠ 0x04 → t.readReg off = s.readReg off) ∧
    (s.busy = false → t.errOvr = s.errOvr) ∧
    (s.busy = true ∨ i = .nop → t.pend = s.pend ∧ t.busy = s.busy)

/-- R61: while a command is pending, a read of STATUS shows BUSY = 1 and otherwise what it showed before acceptance, and DOUT,
DIN and CONFIG read as before. -/
def Obligations.PendingShowsOldResults : Prop :=
  ∀ (i : Instr) (s : State), s.Ready → i ≠ .nop → ∃ t, exec i s = .next t ∧
    t.readReg 0x04 = s.readReg 0x04 ||| 1 ∧ t.readReg 0x10 = s.readReg 0x10 ∧
    t.readReg 0x0C = s.readReg 0x0C ∧ t.readReg 0x08 = s.readReg 0x08

/-- R23, R28, R41: a command's result depends on DIN and, for dec and dec.last, on CONFIG.STRICT, and on nothing else in the
state. -/
def Obligations.ResultDependsOnOperandsOnly : Prop :=
  ∀ (i : Instr) (s t : State), i ≠ .nop → s.Ready → t.Ready → s.din = t.din →
    (s.strict = t.strict ∨ i = .enc1 ∨ i = .enc2 ∨ i = .enc3) →
    ∃ s' t', exec i s = .next s' ∧ exec i t = .next t' ∧
      s'.complete.dout = t'.complete.dout ∧ s'.complete.outlen = t'.complete.outlen ∧
      s'.complete.npad = t'.complete.npad ∧ s'.complete.inv = t'.complete.inv

/-- R172: every run whose accesses are all of the defined form, with no reset, runs to its end with no refusal, and ends with
nothing pending: the block cannot hang. That the block takes its turn when the inputs have run out is the model's choice (log
entry 2), and so is the step for an access outside the window (log entry 7). -/
def Obligations.EveryRunEnds : Prop :=
  ∀ s : State, s.inReset = false →
    (∀ x ∈ s.inputs, x = .blockTurn ∨ ∃ a, x = .access a ∧ (a.touches s.base = false ∨ a.supported s.base = true)) →
    ∃ t, run (s.inputs.length + 1) s = .next t ∧ t.Ended

/-- R244: the host's lines for one group read the result of its command, for every number of polls and every place of the
completion among them; the polls before it read BUSY = 1, and those after it BUSY = 0. -/
def Obligations.GroupSequenceReadsResult : Prop :=
  ∀ (s : State) (host : Nat) (i : Instr) (din : Word) (r : CmdResult) (early late : Nat) (rest : List Input),
    s.Ready → commandResult i din s.strict = some r →
    let busyState : State := { s with busy := true }
    let doneState : State := { s with
      din := din, dout := r.dout, outlen := r.outlen, npad := r.npad, inv := r.inv
      errEnc := s.errEnc || r.encErr, pend := none }
    run (early + late + 5) (s.setInputs (groupInputs s host i din early late ++ rest)) =
      .next { doneState with
        inputs := rest
        replies := ⟨host, r.dout⟩ :: (List.replicate (late + 1) ⟨host, doneState.statusWord⟩ ++
          List.replicate early ⟨host, busyState.statusWord⟩ ++ s.replies) }

/-! ## The register window -/

/-- R51: what a read of each offset returns, and that a read changes nothing in the block (R56). -/
def Obligations.WindowReads : Prop :=
  ∀ (s : State) (host off : Nat) (v : Word) (rest : List Input), s.inReset = false →
    (off, v) ∈ [(0x00, (0 : Word)), (0x04, s.statusWord), (0x08, (BitVec.ofBool s.strict).setWidth 32), (0x0C, s.din),
      (0x10, s.dout), (0x14, 0), (0x18, 0), (0x1C, 0)] →
    step (s.setInputs (s.wordRead host off :: rest)) =
      .next { s with inputs := rest, replies := ⟨host, v⟩ :: s.replies }

/-- R56: two reads of one register with nothing between them return the same value, and leave the block as it was. -/
def Obligations.ReadsAreIdempotent : Prop :=
  ∀ (s : State) (host host' off : Nat) (rest : List Input), s.inReset = false → off < 32 → off % 4 = 0 →
    ∃ v, run 2 (s.setInputs (s.wordRead host off :: s.wordRead host' off :: rest)) =
      .next { s with inputs := rest, replies := ⟨host', v⟩ :: ⟨host, v⟩ :: s.replies }

/-- R27: the places of the fields of STATUS; bit 7 and bits 31:11 read 0. -/
def Obligations.StatusLayout : Prop :=
  ∀ s : State,
    s.statusWord.getLsbD 0 = s.busy ∧ s.statusWord.extractLsb' 1 3 = s.outlen ∧ s.statusWord.extractLsb' 4 2 = s.npad ∧
    s.statusWord.getLsbD 6 = s.inv ∧ s.statusWord.getLsbD 7 = false ∧ s.statusWord.getLsbD 8 = s.errCmd ∧
    s.statusWord.getLsbD 9 = s.errOvr ∧ s.statusWord.getLsbD 10 = s.errEnc ∧ s.statusWord.extractLsb' 11 21 = 0

/-- R58: a STATUS write of `v` clears the sticky bits that `v` selects and changes nothing else, also while BUSY. -/
def Obligations.StatusWriteOneToClear : Prop :=
  ∀ (s : State) (host : Nat) (v : Word) (rest : List Input), s.inReset = false →
    step (s.setInputs (s.wordWrite host 0x04 v :: rest)) = .next { s with
      errCmd := if v.getLsbD 8 then false else s.errCmd
      errOvr := if v.getLsbD 9 then false else s.errOvr
      errEnc := if v.getLsbD 10 then false else s.errEnc
      inputs := rest }

/-- R59, R26: reserved offsets read 0, reserved bits of STATUS and CONFIG read 0, and writes to them and to DOUT are ignored with
no error. -/
def Obligations.ReservedPlaces : Prop :=
  ∀ (s : State) (host : Nat) (v : Word) (rest : List Input), s.inReset = false →
    (∀ off ∈ [0x14, 0x18, 0x1C],
      step (s.setInputs (s.wordRead host off :: rest)) = .next { s with inputs := rest, replies := ⟨host, 0⟩ :: s.replies }) ∧
    (∀ off ∈ [0x10, 0x14, 0x18, 0x1C],
      step (s.setInputs (s.wordWrite host off v :: rest)) = .next { s with inputs := rest }) ∧
    s.statusWord &&& 0xFFFFF880 = 0 ∧ s.configWord &&& 0xFFFFFFFE = 0 ∧
    step (s.setInputs (s.wordWrite host 0x04 v :: rest)) = step (s.setInputs (s.wordWrite host 0x04 (v &&& 0x77F) :: rest)) ∧
    step (s.setInputs (s.wordWrite host 0x08 v :: rest)) = step (s.setInputs (s.wordWrite host 0x08 (v &&& 1) :: rest))

/-- R54, I3: an access to the window that is not 32 bits wide at an offset that is a multiple of 4 is refused. -/
def Obligations.UnsupportedAccessRefused : Prop :=
  ∀ (s : State) (a : Access) (rest : List Input), s.inReset = false →
    s.base ≤ a.addr → a.addr < s.base + 32 → 0 < a.bytes → (a.bytes ≠ 4 ∨ (a.addr - s.base) % 4 ≠ 0) →
    step (s.setInputs (.access a :: rest)) = .refused .unsupportedAccess

/-- R50: an access outside the window is no access to the block. That the block then takes a step that changes nothing is the
model's choice (log entry 7). -/
def Obligations.OutsideWindowIgnored : Prop :=
  ∀ (s : State) (a : Access) (rest : List Input),
    (a.addr + a.bytes ≤ s.base ∨ s.base + 32 ≤ a.addr) →
    step (s.setInputs (.access a :: rest)) = .next { s with inputs := rest }

/-- R70, R210: nothing depends on which host made an access: with another host the step is refused or not alike, and the next
states are equal, replies and the words in them included, but for the hosts that replies name. -/
def Obligations.HostsAreIndistinguishable : Prop :=
  ∀ (s : State) (a : Access) (host : Nat) (rest : List Input),
    let own := step (s.setInputs (.access a :: rest))
    let other := step (s.setInputs (.access { a with host := host } :: rest))
    (nextState own).map State.withoutHosts = (nextState other).map State.withoutHosts ∧ refusal own = refusal other

/-! ## Events -/

/-- R205: a step raises at most one event; an access never raises ErrEnc, and the block's turn never any other. -/
def Obligations.AtMostOneEventPerStep : Prop :=
  ∀ s t : State, step s = .next t →
    let Raised := fun e : Event => s.sticky e = false ∧ t.sticky e = true
    (∀ e f, Raised e → Raised f → e = f) ∧
    (∀ a rest, s.inputs = .access a :: rest → ¬ Raised .errEnc) ∧
    (∀ rest, s.inputs = [] ∨ s.inputs = .blockTurn :: rest → ∀ e, Raised e → e = .errEnc)

/-- R207: a sticky bit stays 1 until a host writes 1 to it in STATUS or the block is reset; a repeated event leaves it 1, and the
bits do not interact. -/
def Obligations.StickyUntilClearedOrReset : Prop :=
  (∀ (s t : State) (e : Event), step s = .next t → s.sticky e = true → t.sticky e = false →
    (∃ a v rest, s.inputs = .access a :: rest ∧ a.addr = s.base + 0x04 ∧ a.kind = .write v ∧ v.getLsbD e.code = true) ∨
    (∃ rest, s.inputs = .assertReset :: rest)) ∧
  ∀ (s : State) (e f : Event), (s.raise e).raise e = s.raise e ∧
    (s.raise e).sticky f = (s.sticky f || decide (e = f))

/-! ## What may change what -/

/-- R26, R55: DOUT, OUTLEN, NPAD and INV change only at the block's turn with a command pending, or at reset. -/
def Obligations.ResultsChangeOnlyAtCompletion : Prop :=
  ∀ s t : State, step s = .next t →
    (t.dout ≠ s.dout ∨ t.outlen ≠ s.outlen ∨ t.npad ≠ s.npad ∨ t.inv ≠ s.inv) →
    (s.pend ≠ none ∧ (s.inputs = [] ∨ ∃ rest, s.inputs = .blockTurn :: rest)) ∨
    ∃ rest, s.inputs = .assertReset :: rest

/-- R24, R23, R60: DIN and CONFIG.STRICT change only by a host write to that register while BUSY = 0, or at reset. -/
def Obligations.OperandsChangeOnlyByWrite : Prop :=
  ∀ s t : State, step s = .next t →
    (t.din ≠ s.din → (∃ rest, s.inputs = .assertReset :: rest) ∨
      ∃ a rest, s.inputs = .access a :: rest ∧ s.busy = false ∧ a.addr = s.base + 0x0C ∧ a.kind = .write t.din) ∧
    (t.strict ≠ s.strict → (∃ rest, s.inputs = .assertReset :: rest) ∨
      ∃ a v rest, s.inputs = .access a :: rest ∧ s.busy = false ∧ a.addr = s.base + 0x08 ∧ a.kind = .write v ∧
        t.strict = v.getLsbD 0)

/-- R177, R202: from a state that meets the invariant, a pending command's record stays as it is until the block's turn or reset:
nothing a host does changes or replaces it. -/
def Obligations.PendingRecordStable : Prop :=
  ∀ (s t : State) (p : PendRec), s.Inv → s.pend = some p → step s = .next t → t.pend ≠ some p →
    t.pend = none ∧ (s.inputs = [] ∨ (∃ rest, s.inputs = .blockTurn :: rest) ∨ ∃ rest, s.inputs = .assertReset :: rest)

/-! ## Reset -/

/-- R230: reset, from any state, sets every register to its reset value and abandons a pending command, which never completes: the
block's turn after it changes nothing. The state after reset holds the same values, and every offset reads 0. -/
def Obligations.ResetFromAnyState : Prop :=
  (∀ (s : State) (rest : List Input), ∃ t, step (s.setInputs (.assertReset :: rest)) = .next t ∧
    t.strict = false ∧ t.din = 0x00000000 ∧ t.dout = 0x00000000 ∧ t.busy = false ∧ t.outlen = 0 ∧ t.npad = 0 ∧
    t.inv = false ∧ t.errCmd = false ∧ t.errOvr = false ∧ t.errEnc = false ∧ t.pend = none ∧
    (∀ off, t.readReg off = 0x00000000) ∧ t.complete = t) ∧
  State.reset.registersReset = true ∧ ∀ off, State.reset.readReg off = 0x00000000

/-- The model's choice (log entry 8): asserting reset keeps BASE, the inputs still to come and the replies, and holds the block in
reset until the release, which changes nothing else; a command during reset is refused like any access. -/
def Obligations.ResetKeepsModelFields : Prop :=
  (∀ (s : State) (rest : List Input),
    step (s.setInputs (.assertReset :: rest)) =
      .next { State.reset with inReset := true, window := s.window, inputs := rest, replies := s.replies }) ∧
  (∀ (s : State) (rest : List Input),
    step (s.setInputs (.releaseReset :: rest)) = .next { s with inReset := false, inputs := rest }) ∧
  ∀ (s : State) (i : Instr), s.inReset = true → exec i s = .refused .accessDuringReset

/-- R233, I6: an access to the window while reset is asserted is refused. -/
def Obligations.AccessDuringResetRefused : Prop :=
  ∀ (s : State) (a : Access) (rest : List Input), s.inReset = true → s.base ≤ a.addr → a.addr < s.base + 32 →
    0 < a.bytes → step (s.setInputs (.access a :: rest)) = .refused .accessDuringReset

/-! ## The invariant, and several instances -/

/-- The invariant holds right after reset. -/
def Obligations.InvariantAtReset : Prop := State.reset.Inv

/-- R27, R40, R86, R87: from every state that meets the invariant, a step that answers a next state gives one that meets it:
BUSY = 1 exactly when a command is pending, the latched operands are the live ones, DOUT with OUTLEN, NPAD and INV is shaped as
some result, and reset holds the registers. -/
def Obligations.StepKeepsInvariant : Prop :=
  ∀ s t : State, s.Inv → step s = .next t → t.Inv

/-- R213, R8: a step of one instance leaves every other instance as it was, and an access to one instance's window is not an
access to another's. -/
def Obligations.InstancesShareNothing : Prop :=
  (∀ (sys sys' : System) (k j : Nat), sys.stepAt k = .next sys' → j ≠ k → sys'[j]? = sys[j]?) ∧
  ∀ (s t : State) (a : Access), a.supported s.base = true → a.touches s.base = true → t.window ≠ s.window →
    a.touches t.base = false

/-! ## The contents of the tables -/

/-- R101, R103: ALPHABET holds the code units of `A–Z, a–z, 0–9, +, /` in that order, as R101's table lists them, and PAD is 0x3D. The
numbers rest on R100, which the spec marks as general knowledge (log entry 13). -/
def Obligations.AlphabetContents : Prop :=
  (List.finRange 64).map (fun i => alphabet (BitVec.ofFin i)) =
    [0x41, 0x42, 0x43, 0x44, 0x45, 0x46, 0x47, 0x48, 0x49, 0x4A, 0x4B, 0x4C, 0x4D,
      0x4E, 0x4F, 0x50, 0x51, 0x52, 0x53, 0x54, 0x55, 0x56, 0x57, 0x58, 0x59, 0x5A] ++
    [0x61, 0x62, 0x63, 0x64, 0x65, 0x66, 0x67, 0x68, 0x69, 0x6A, 0x6B, 0x6C, 0x6D,
      0x6E, 0x6F, 0x70, 0x71, 0x72, 0x73, 0x74, 0x75, 0x76, 0x77, 0x78, 0x79, 0x7A] ++
    [0x30, 0x31, 0x32, 0x33, 0x34, 0x35, 0x36, 0x37, 0x38, 0x39, 0x2B, 0x2F] ∧
  pad = 0x3D
end

