-- ==== Sys2Proof/Laws/State.lean ====
section
/-! SUPPORT. One lemma per field per update of State, true by rfl, so that no later proof unfolds a record update. -/

namespace Sys2Proof.Machine

/-! ## writeConfig -/

@[simp] theorem State.writeConfig_strict (s : State) (v : Word) :
    (s.writeConfig v).strict = v.getLsbD 0 := rfl
@[simp] theorem State.writeConfig_din (s : State) (v : Word) :
    (s.writeConfig v).din = s.din := rfl
@[simp] theorem State.writeConfig_dout (s : State) (v : Word) :
    (s.writeConfig v).dout = s.dout := rfl
@[simp] theorem State.writeConfig_busy (s : State) (v : Word) :
    (s.writeConfig v).busy = s.busy := rfl
@[simp] theorem State.writeConfig_outlen (s : State) (v : Word) :
    (s.writeConfig v).outlen = s.outlen := rfl
@[simp] theorem State.writeConfig_npad (s : State) (v : Word) :
    (s.writeConfig v).npad = s.npad := rfl
@[simp] theorem State.writeConfig_inv (s : State) (v : Word) :
    (s.writeConfig v).inv = s.inv := rfl
@[simp] theorem State.writeConfig_errCmd (s : State) (v : Word) :
    (s.writeConfig v).errCmd = s.errCmd := rfl
@[simp] theorem State.writeConfig_errOvr (s : State) (v : Word) :
    (s.writeConfig v).errOvr = s.errOvr := rfl
@[simp] theorem State.writeConfig_errEnc (s : State) (v : Word) :
    (s.writeConfig v).errEnc = s.errEnc := rfl
@[simp] theorem State.writeConfig_pend (s : State) (v : Word) :
    (s.writeConfig v).pend = s.pend := rfl
@[simp] theorem State.writeConfig_inReset (s : State) (v : Word) :
    (s.writeConfig v).inReset = s.inReset := rfl
@[simp] theorem State.writeConfig_window (s : State) (v : Word) :
    (s.writeConfig v).window = s.window := rfl
@[simp] theorem State.writeConfig_inputs (s : State) (v : Word) :
    (s.writeConfig v).inputs = s.inputs := rfl
@[simp] theorem State.writeConfig_replies (s : State) (v : Word) :
    (s.writeConfig v).replies = s.replies := rfl
@[simp] theorem State.writeConfig_base (s : State) (v : Word) :
    (s.writeConfig v).base = s.base := rfl

/-! ## writeDin -/

@[simp] theorem State.writeDin_strict (s : State) (v : Word) :
    (s.writeDin v).strict = s.strict := rfl
@[simp] theorem State.writeDin_din (s : State) (v : Word) :
    (s.writeDin v).din = v := rfl
@[simp] theorem State.writeDin_dout (s : State) (v : Word) :
    (s.writeDin v).dout = s.dout := rfl
@[simp] theorem State.writeDin_busy (s : State) (v : Word) :
    (s.writeDin v).busy = s.busy := rfl
@[simp] theorem State.writeDin_outlen (s : State) (v : Word) :
    (s.writeDin v).outlen = s.outlen := rfl
@[simp] theorem State.writeDin_npad (s : State) (v : Word) :
    (s.writeDin v).npad = s.npad := rfl
@[simp] theorem State.writeDin_inv (s : State) (v : Word) :
    (s.writeDin v).inv = s.inv := rfl
@[simp] theorem State.writeDin_errCmd (s : State) (v : Word) :
    (s.writeDin v).errCmd = s.errCmd := rfl
@[simp] theorem State.writeDin_errOvr (s : State) (v : Word) :
    (s.writeDin v).errOvr = s.errOvr := rfl
@[simp] theorem State.writeDin_errEnc (s : State) (v : Word) :
    (s.writeDin v).errEnc = s.errEnc := rfl
@[simp] theorem State.writeDin_pend (s : State) (v : Word) :
    (s.writeDin v).pend = s.pend := rfl
@[simp] theorem State.writeDin_inReset (s : State) (v : Word) :
    (s.writeDin v).inReset = s.inReset := rfl
@[simp] theorem State.writeDin_window (s : State) (v : Word) :
    (s.writeDin v).window = s.window := rfl
@[simp] theorem State.writeDin_inputs (s : State) (v : Word) :
    (s.writeDin v).inputs = s.inputs := rfl
@[simp] theorem State.writeDin_replies (s : State) (v : Word) :
    (s.writeDin v).replies = s.replies := rfl
@[simp] theorem State.writeDin_base (s : State) (v : Word) :
    (s.writeDin v).base = s.base := rfl

/-! ## accept -/

@[simp] theorem State.accept_strict (s : State) (o : Operation) :
    (s.accept o).strict = s.strict := rfl
@[simp] theorem State.accept_din (s : State) (o : Operation) :
    (s.accept o).din = s.din := rfl
@[simp] theorem State.accept_dout (s : State) (o : Operation) :
    (s.accept o).dout = s.dout := rfl
@[simp] theorem State.accept_busy (s : State) (o : Operation) :
    (s.accept o).busy = true := rfl
@[simp] theorem State.accept_outlen (s : State) (o : Operation) :
    (s.accept o).outlen = s.outlen := rfl
@[simp] theorem State.accept_npad (s : State) (o : Operation) :
    (s.accept o).npad = s.npad := rfl
@[simp] theorem State.accept_inv (s : State) (o : Operation) :
    (s.accept o).inv = s.inv := rfl
@[simp] theorem State.accept_errCmd (s : State) (o : Operation) :
    (s.accept o).errCmd = s.errCmd := rfl
@[simp] theorem State.accept_errOvr (s : State) (o : Operation) :
    (s.accept o).errOvr = s.errOvr := rfl
@[simp] theorem State.accept_errEnc (s : State) (o : Operation) :
    (s.accept o).errEnc = s.errEnc := rfl
@[simp] theorem State.accept_pend (s : State) (o : Operation) :
    (s.accept o).pend = some { operation := o, din := s.din, strict := s.strict } := rfl
@[simp] theorem State.accept_inReset (s : State) (o : Operation) :
    (s.accept o).inReset = s.inReset := rfl
@[simp] theorem State.accept_window (s : State) (o : Operation) :
    (s.accept o).window = s.window := rfl
@[simp] theorem State.accept_inputs (s : State) (o : Operation) :
    (s.accept o).inputs = s.inputs := rfl
@[simp] theorem State.accept_replies (s : State) (o : Operation) :
    (s.accept o).replies = s.replies := rfl
@[simp] theorem State.accept_base (s : State) (o : Operation) :
    (s.accept o).base = s.base := rfl

/-! ## resetRegisters -/

@[simp] theorem State.resetRegisters_strict (s : State) :
    (s.resetRegisters).strict = false := rfl
@[simp] theorem State.resetRegisters_din (s : State) :
    (s.resetRegisters).din = 0 := rfl
@[simp] theorem State.resetRegisters_dout (s : State) :
    (s.resetRegisters).dout = 0 := rfl
@[simp] theorem State.resetRegisters_busy (s : State) :
    (s.resetRegisters).busy = false := rfl
@[simp] theorem State.resetRegisters_outlen (s : State) :
    (s.resetRegisters).outlen = 0 := rfl
@[simp] theorem State.resetRegisters_npad (s : State) :
    (s.resetRegisters).npad = 0 := rfl
@[simp] theorem State.resetRegisters_inv (s : State) :
    (s.resetRegisters).inv = false := rfl
@[simp] theorem State.resetRegisters_errCmd (s : State) :
    (s.resetRegisters).errCmd = false := rfl
@[simp] theorem State.resetRegisters_errOvr (s : State) :
    (s.resetRegisters).errOvr = false := rfl
@[simp] theorem State.resetRegisters_errEnc (s : State) :
    (s.resetRegisters).errEnc = false := rfl
@[simp] theorem State.resetRegisters_pend (s : State) :
    (s.resetRegisters).pend = none := rfl
@[simp] theorem State.resetRegisters_inReset (s : State) :
    (s.resetRegisters).inReset = s.inReset := rfl
@[simp] theorem State.resetRegisters_window (s : State) :
    (s.resetRegisters).window = s.window := rfl
@[simp] theorem State.resetRegisters_inputs (s : State) :
    (s.resetRegisters).inputs = s.inputs := rfl
@[simp] theorem State.resetRegisters_replies (s : State) :
    (s.resetRegisters).replies = s.replies := rfl
@[simp] theorem State.resetRegisters_base (s : State) :
    (s.resetRegisters).base = s.base := rfl

/-! ## assertReset -/

@[simp] theorem State.assertReset_strict (s : State) :
    (s.assertReset).strict = false := rfl
@[simp] theorem State.assertReset_din (s : State) :
    (s.assertReset).din = 0 := rfl
@[simp] theorem State.assertReset_dout (s : State) :
    (s.assertReset).dout = 0 := rfl
@[simp] theorem State.assertReset_busy (s : State) :
    (s.assertReset).busy = false := rfl
@[simp] theorem State.assertReset_outlen (s : State) :
    (s.assertReset).outlen = 0 := rfl
@[simp] theorem State.assertReset_npad (s : State) :
    (s.assertReset).npad = 0 := rfl
@[simp] theorem State.assertReset_inv (s : State) :
    (s.assertReset).inv = false := rfl
@[simp] theorem State.assertReset_errCmd (s : State) :
    (s.assertReset).errCmd = false := rfl
@[simp] theorem State.assertReset_errOvr (s : State) :
    (s.assertReset).errOvr = false := rfl
@[simp] theorem State.assertReset_errEnc (s : State) :
    (s.assertReset).errEnc = false := rfl
@[simp] theorem State.assertReset_pend (s : State) :
    (s.assertReset).pend = none := rfl
@[simp] theorem State.assertReset_inReset (s : State) :
    (s.assertReset).inReset = true := rfl
@[simp] theorem State.assertReset_window (s : State) :
    (s.assertReset).window = s.window := rfl
@[simp] theorem State.assertReset_inputs (s : State) :
    (s.assertReset).inputs = s.inputs := rfl
@[simp] theorem State.assertReset_replies (s : State) :
    (s.assertReset).replies = s.replies := rfl
@[simp] theorem State.assertReset_base (s : State) :
    (s.assertReset).base = s.base := rfl

/-! ## releaseReset -/

@[simp] theorem State.releaseReset_strict (s : State) :
    (s.releaseReset).strict = s.strict := rfl
@[simp] theorem State.releaseReset_din (s : State) :
    (s.releaseReset).din = s.din := rfl
@[simp] theorem State.releaseReset_dout (s : State) :
    (s.releaseReset).dout = s.dout := rfl
@[simp] theorem State.releaseReset_busy (s : State) :
    (s.releaseReset).busy = s.busy := rfl
@[simp] theorem State.releaseReset_outlen (s : State) :
    (s.releaseReset).outlen = s.outlen := rfl
@[simp] theorem State.releaseReset_npad (s : State) :
    (s.releaseReset).npad = s.npad := rfl
@[simp] theorem State.releaseReset_inv (s : State) :
    (s.releaseReset).inv = s.inv := rfl
@[simp] theorem State.releaseReset_errCmd (s : State) :
    (s.releaseReset).errCmd = s.errCmd := rfl
@[simp] theorem State.releaseReset_errOvr (s : State) :
    (s.releaseReset).errOvr = s.errOvr := rfl
@[simp] theorem State.releaseReset_errEnc (s : State) :
    (s.releaseReset).errEnc = s.errEnc := rfl
@[simp] theorem State.releaseReset_pend (s : State) :
    (s.releaseReset).pend = s.pend := rfl
@[simp] theorem State.releaseReset_inReset (s : State) :
    (s.releaseReset).inReset = false := rfl
@[simp] theorem State.releaseReset_window (s : State) :
    (s.releaseReset).window = s.window := rfl
@[simp] theorem State.releaseReset_inputs (s : State) :
    (s.releaseReset).inputs = s.inputs := rfl
@[simp] theorem State.releaseReset_replies (s : State) :
    (s.releaseReset).replies = s.replies := rfl
@[simp] theorem State.releaseReset_base (s : State) :
    (s.releaseReset).base = s.base := rfl

/-! ## setInputs -/

@[simp] theorem State.setInputs_strict (s : State) (rest : List Input) :
    (s.setInputs rest).strict = s.strict := rfl
@[simp] theorem State.setInputs_din (s : State) (rest : List Input) :
    (s.setInputs rest).din = s.din := rfl
@[simp] theorem State.setInputs_dout (s : State) (rest : List Input) :
    (s.setInputs rest).dout = s.dout := rfl
@[simp] theorem State.setInputs_busy (s : State) (rest : List Input) :
    (s.setInputs rest).busy = s.busy := rfl
@[simp] theorem State.setInputs_outlen (s : State) (rest : List Input) :
    (s.setInputs rest).outlen = s.outlen := rfl
@[simp] theorem State.setInputs_npad (s : State) (rest : List Input) :
    (s.setInputs rest).npad = s.npad := rfl
@[simp] theorem State.setInputs_inv (s : State) (rest : List Input) :
    (s.setInputs rest).inv = s.inv := rfl
@[simp] theorem State.setInputs_errCmd (s : State) (rest : List Input) :
    (s.setInputs rest).errCmd = s.errCmd := rfl
@[simp] theorem State.setInputs_errOvr (s : State) (rest : List Input) :
    (s.setInputs rest).errOvr = s.errOvr := rfl
@[simp] theorem State.setInputs_errEnc (s : State) (rest : List Input) :
    (s.setInputs rest).errEnc = s.errEnc := rfl
@[simp] theorem State.setInputs_pend (s : State) (rest : List Input) :
    (s.setInputs rest).pend = s.pend := rfl
@[simp] theorem State.setInputs_inReset (s : State) (rest : List Input) :
    (s.setInputs rest).inReset = s.inReset := rfl
@[simp] theorem State.setInputs_window (s : State) (rest : List Input) :
    (s.setInputs rest).window = s.window := rfl
@[simp] theorem State.setInputs_inputs (s : State) (rest : List Input) :
    (s.setInputs rest).inputs = rest := rfl
@[simp] theorem State.setInputs_replies (s : State) (rest : List Input) :
    (s.setInputs rest).replies = s.replies := rfl
@[simp] theorem State.setInputs_base (s : State) (rest : List Input) :
    (s.setInputs rest).base = s.base := rfl

/-! ## reply -/

@[simp] theorem State.reply_strict (s : State) (h : Nat) (v : Word) :
    (s.reply h v).strict = s.strict := rfl
@[simp] theorem State.reply_din (s : State) (h : Nat) (v : Word) :
    (s.reply h v).din = s.din := rfl
@[simp] theorem State.reply_dout (s : State) (h : Nat) (v : Word) :
    (s.reply h v).dout = s.dout := rfl
@[simp] theorem State.reply_busy (s : State) (h : Nat) (v : Word) :
    (s.reply h v).busy = s.busy := rfl
@[simp] theorem State.reply_outlen (s : State) (h : Nat) (v : Word) :
    (s.reply h v).outlen = s.outlen := rfl
@[simp] theorem State.reply_npad (s : State) (h : Nat) (v : Word) :
    (s.reply h v).npad = s.npad := rfl
@[simp] theorem State.reply_inv (s : State) (h : Nat) (v : Word) :
    (s.reply h v).inv = s.inv := rfl
@[simp] theorem State.reply_errCmd (s : State) (h : Nat) (v : Word) :
    (s.reply h v).errCmd = s.errCmd := rfl
@[simp] theorem State.reply_errOvr (s : State) (h : Nat) (v : Word) :
    (s.reply h v).errOvr = s.errOvr := rfl
@[simp] theorem State.reply_errEnc (s : State) (h : Nat) (v : Word) :
    (s.reply h v).errEnc = s.errEnc := rfl
@[simp] theorem State.reply_pend (s : State) (h : Nat) (v : Word) :
    (s.reply h v).pend = s.pend := rfl
@[simp] theorem State.reply_inReset (s : State) (h : Nat) (v : Word) :
    (s.reply h v).inReset = s.inReset := rfl
@[simp] theorem State.reply_window (s : State) (h : Nat) (v : Word) :
    (s.reply h v).window = s.window := rfl
@[simp] theorem State.reply_inputs (s : State) (h : Nat) (v : Word) :
    (s.reply h v).inputs = s.inputs := rfl
@[simp] theorem State.reply_replies (s : State) (h : Nat) (v : Word) :
    (s.reply h v).replies = { host := h, value := v } :: s.replies := rfl
@[simp] theorem State.reply_base (s : State) (h : Nat) (v : Word) :
    (s.reply h v).base = s.base := rfl

/-! ## clearSelected -/

@[simp] theorem State.clearSelected_strict (s : State) (v : Word) :
    (s.clearSelected v).strict = s.strict := rfl
@[simp] theorem State.clearSelected_din (s : State) (v : Word) :
    (s.clearSelected v).din = s.din := rfl
@[simp] theorem State.clearSelected_dout (s : State) (v : Word) :
    (s.clearSelected v).dout = s.dout := rfl
@[simp] theorem State.clearSelected_busy (s : State) (v : Word) :
    (s.clearSelected v).busy = s.busy := rfl
@[simp] theorem State.clearSelected_outlen (s : State) (v : Word) :
    (s.clearSelected v).outlen = s.outlen := rfl
@[simp] theorem State.clearSelected_npad (s : State) (v : Word) :
    (s.clearSelected v).npad = s.npad := rfl
@[simp] theorem State.clearSelected_inv (s : State) (v : Word) :
    (s.clearSelected v).inv = s.inv := rfl
@[simp] theorem State.clearSelected_errCmd (s : State) (v : Word) :
    (s.clearSelected v).errCmd = (s.errCmd && !v.getLsbD 8) := rfl
@[simp] theorem State.clearSelected_errOvr (s : State) (v : Word) :
    (s.clearSelected v).errOvr = (s.errOvr && !v.getLsbD 9) := rfl
@[simp] theorem State.clearSelected_errEnc (s : State) (v : Word) :
    (s.clearSelected v).errEnc = (s.errEnc && !v.getLsbD 10) := rfl
@[simp] theorem State.clearSelected_pend (s : State) (v : Word) :
    (s.clearSelected v).pend = s.pend := rfl
@[simp] theorem State.clearSelected_inReset (s : State) (v : Word) :
    (s.clearSelected v).inReset = s.inReset := rfl
@[simp] theorem State.clearSelected_window (s : State) (v : Word) :
    (s.clearSelected v).window = s.window := rfl
@[simp] theorem State.clearSelected_inputs (s : State) (v : Word) :
    (s.clearSelected v).inputs = s.inputs := rfl
@[simp] theorem State.clearSelected_replies (s : State) (v : Word) :
    (s.clearSelected v).replies = s.replies := rfl
@[simp] theorem State.clearSelected_base (s : State) (v : Word) :
    (s.clearSelected v).base = s.base := rfl

/-! ## finish -/

@[simp] theorem State.finish_strict (s : State) (r : CmdResult) :
    (s.finish r).strict = s.strict := rfl
@[simp] theorem State.finish_din (s : State) (r : CmdResult) :
    (s.finish r).din = s.din := rfl
@[simp] theorem State.finish_dout (s : State) (r : CmdResult) :
    (s.finish r).dout = r.dout := rfl
@[simp] theorem State.finish_busy (s : State) (r : CmdResult) :
    (s.finish r).busy = false := rfl
@[simp] theorem State.finish_outlen (s : State) (r : CmdResult) :
    (s.finish r).outlen = r.outlen := rfl
@[simp] theorem State.finish_npad (s : State) (r : CmdResult) :
    (s.finish r).npad = r.npad := rfl
@[simp] theorem State.finish_inv (s : State) (r : CmdResult) :
    (s.finish r).inv = r.inv := rfl
@[simp] theorem State.finish_errCmd (s : State) (r : CmdResult) :
    (s.finish r).errCmd = s.errCmd := rfl
@[simp] theorem State.finish_errOvr (s : State) (r : CmdResult) :
    (s.finish r).errOvr = s.errOvr := rfl
@[simp] theorem State.finish_errEnc (s : State) (r : CmdResult) :
    (s.finish r).errEnc = (s.errEnc || r.encErr) := rfl
@[simp] theorem State.finish_pend (s : State) (r : CmdResult) :
    (s.finish r).pend = none := rfl
@[simp] theorem State.finish_inReset (s : State) (r : CmdResult) :
    (s.finish r).inReset = s.inReset := rfl
@[simp] theorem State.finish_window (s : State) (r : CmdResult) :
    (s.finish r).window = s.window := rfl
@[simp] theorem State.finish_inputs (s : State) (r : CmdResult) :
    (s.finish r).inputs = s.inputs := rfl
@[simp] theorem State.finish_replies (s : State) (r : CmdResult) :
    (s.finish r).replies = s.replies := rfl
@[simp] theorem State.finish_base (s : State) (r : CmdResult) :
    (s.finish r).base = s.base := rfl

/-! ## raise -/

@[simp] theorem State.raise_errCmd_errCmd (s : State) : (s.raise .errCmd).errCmd = true := rfl
@[simp] theorem State.raise_errCmd_errOvr (s : State) : (s.raise .errCmd).errOvr = s.errOvr := rfl
@[simp] theorem State.raise_errCmd_errEnc (s : State) : (s.raise .errCmd).errEnc = s.errEnc := rfl
@[simp] theorem State.raise_errOvr_errCmd (s : State) : (s.raise .errOvr).errCmd = s.errCmd := rfl
@[simp] theorem State.raise_errOvr_errOvr (s : State) : (s.raise .errOvr).errOvr = true := rfl
@[simp] theorem State.raise_errOvr_errEnc (s : State) : (s.raise .errOvr).errEnc = s.errEnc := rfl
@[simp] theorem State.raise_errEnc_errCmd (s : State) : (s.raise .errEnc).errCmd = s.errCmd := rfl
@[simp] theorem State.raise_errEnc_errOvr (s : State) : (s.raise .errEnc).errOvr = s.errOvr := rfl
@[simp] theorem State.raise_errEnc_errEnc (s : State) : (s.raise .errEnc).errEnc = true := rfl
@[simp] theorem State.raise_strict (s : State) (e : Event) : (s.raise e).strict = s.strict := by cases e <;> rfl
@[simp] theorem State.raise_din (s : State) (e : Event) : (s.raise e).din = s.din := by cases e <;> rfl
@[simp] theorem State.raise_dout (s : State) (e : Event) : (s.raise e).dout = s.dout := by cases e <;> rfl
@[simp] theorem State.raise_busy (s : State) (e : Event) : (s.raise e).busy = s.busy := by cases e <;> rfl
@[simp] theorem State.raise_outlen (s : State) (e : Event) : (s.raise e).outlen = s.outlen := by cases e <;> rfl
@[simp] theorem State.raise_npad (s : State) (e : Event) : (s.raise e).npad = s.npad := by cases e <;> rfl
@[simp] theorem State.raise_inv (s : State) (e : Event) : (s.raise e).inv = s.inv := by cases e <;> rfl
@[simp] theorem State.raise_pend (s : State) (e : Event) : (s.raise e).pend = s.pend := by cases e <;> rfl
@[simp] theorem State.raise_inReset (s : State) (e : Event) : (s.raise e).inReset = s.inReset := by cases e <;> rfl
@[simp] theorem State.raise_window (s : State) (e : Event) : (s.raise e).window = s.window := by cases e <;> rfl
@[simp] theorem State.raise_inputs (s : State) (e : Event) : (s.raise e).inputs = s.inputs := by cases e <;> rfl
@[simp] theorem State.raise_replies (s : State) (e : Event) : (s.raise e).replies = s.replies := by cases e <;> rfl
@[simp] theorem State.raise_base (s : State) (e : Event) : (s.raise e).base = s.base := by cases e <;> rfl

/-! ## setInputs of itself, and of another -/

@[simp] theorem State.setInputs_self (s : State) : s.setInputs s.inputs = s := rfl

@[simp] theorem State.setInputs_setInputs (s : State) (a b : List Input) : (s.setInputs a).setInputs b = s.setInputs b := rfl

end Sys2Proof.Machine
end

