-- ==== Sys2Proof/Laws/Ops.lean ====
section
/-! SUPPORT. Everything each shared operation can do, said once. -/

namespace Sys2Proof.Machine

/-! ## The gate of a CMD, DIN or CONFIG write -/

theorem gateWrite_of_ready {s : State} (h : s.inReset = false ∧ s.busy = false) (k : State → Result) :
    gateWrite s k = k s := by
  simp [gateWrite, h.1, h.2]

theorem gateWrite_of_busy {s : State} (hr : s.inReset = false) (hb : s.busy = true) (k : State → Result) :
    gateWrite s k = .next (s.raise .errOvr) := by
  simp [gateWrite, hr, hb]

theorem gateWrite_of_inReset {s : State} (hr : s.inReset = true) (k : State → Result) :
    gateWrite s k = .refused .accessDuringReset := by
  simp [gateWrite, hr]

/-- A gated write that answers a next state was dropped with ErrOvr, or performed. -/
theorem gateWrite_next {s t : State} {k : State → Result} (h : gateWrite s k = .next t) :
    s.inReset = false ∧ ((s.busy = true ∧ t = s.raise .errOvr) ∨ (s.busy = false ∧ k s = .next t)) := by
  unfold gateWrite at h
  split at h
  · cases h
  · split at h
    · cases h; simp_all
    · simp_all

/-! ## The commands -/

/-- What any of the six commands does: all are gated, nop does nothing, and the others are accepted (R170). -/
theorem exec_eq_gate (i : Instr) (s : State) :
    exec i s = gateWrite s fun s => .next (match operationOf i with
      | none => s
      | some o => s.accept o) := by
  cases i <;> rfl

/-- A command that answers a next state was dropped, was nop, or was accepted. -/
theorem exec_next {i : Instr} {s t : State} (h : exec i s = .next t) :
    s.inReset = false ∧
      ((s.busy = true ∧ t = s.raise .errOvr) ∨
        (s.busy = false ∧ operationOf i = none ∧ t = s) ∨
        (s.busy = false ∧ ∃ o, operationOf i = some o ∧ t = s.accept o)) := by
  rw [exec_eq_gate] at h
  obtain ⟨hr, h | ⟨hb, h⟩⟩ := gateWrite_next h
  · exact ⟨hr, .inl h⟩
  · refine ⟨hr, .inr ?_⟩
    cases ho : operationOf i with
    | none => exact .inl ⟨hb, rfl, by simpa [ho] using h.symm⟩
    | some o => exact .inr ⟨hb, o, rfl, by simpa [ho] using h.symm⟩

/-- A CMD write that answers a next state was dropped, did nothing, was accepted, or raised ErrCmd. -/
theorem writeCmd_next {w : Word} {s t : State} (h : writeCmd w s = .next t) :
    s.inReset = false ∧
      ((s.busy = true ∧ t = s.raise .errOvr) ∨
        (s.busy = false ∧ (t = s ∨ (∃ o, t = s.accept o) ∨ t = s.raise .errCmd))) := by
  unfold writeCmd at h
  split at h
  · obtain ⟨hr, h | ⟨hb, -, h⟩ | ⟨hb, o, -, h⟩⟩ := exec_next h
    · exact ⟨hr, .inl h⟩
    · exact ⟨hr, .inr ⟨hb, .inl h⟩⟩
    · exact ⟨hr, .inr ⟨hb, .inr (.inl ⟨o, h⟩)⟩⟩
  · obtain ⟨hr, h | ⟨hb, h⟩⟩ := gateWrite_next h
    · exact ⟨hr, .inl h⟩
    · cases h; exact ⟨hr, .inr ⟨hb, .inr (.inr rfl)⟩⟩

/-! ## Completion -/

theorem complete_of_none {s : State} (h : s.pend = none) : s.complete = s := by
  simp [State.complete, h]

theorem complete_of_some {s : State} {p : PendRec} (h : s.pend = some p) : s.complete = s.finish p.result := by
  simp [State.complete, h]

/-- A decoder command's result is the strict rejection or a datapath value, and says which. -/
theorem decResult_cases (last : Bool) (din : Word) (strict : Bool) :
    decResult last din strict = strictRejection ∨
      ((decResult last din strict).encErr = false ∧
        (((decResult last din strict).outlen = 1 ∧ (decResult last din strict).npad = 2) ∨
          ((decResult last din strict).outlen = 2 ∧ (decResult last din strict).npad = 1) ∨
          ((decResult last din strict).outlen = 3 ∧ (decResult last din strict).npad = 0))) := by
  unfold decResult
  dsimp only
  split
  · exact .inl rfl
  · split
    · exact .inr ⟨rfl, .inl ⟨rfl, rfl⟩⟩
    · split
      · exact .inr ⟨rfl, .inr (.inl ⟨rfl, rfl⟩)⟩
      · exact .inr ⟨rfl, .inr (.inr ⟨rfl, rfl⟩)⟩

end Sys2Proof.Machine
end

