-- ==== Sys2Proof/Laws/PerInstr.lean ====
section
/-! SUPPORT. Statements made once per instruction. Encoding: the instruction is well formed, its word has the fields of R82's
table, and packing those fields gives the word back. -/

namespace Sys2Proof.Laws.Encoding

def Statement (i : Instr) : Prop :=
  i.wf = true ∧ Cmd32.ofWord (encode i) = i.fields ∧ i.fields.toWord = encode i

theorem nop : Statement .nop := ⟨by decide, by decide, by decide⟩

theorem enc1 : Statement .enc1 := ⟨by decide, by decide, by decide⟩

theorem enc2 : Statement .enc2 := ⟨by decide, by decide, by decide⟩

theorem enc3 : Statement .enc3 := ⟨by decide, by decide, by decide⟩

theorem dec : Statement .dec := ⟨by decide, by decide, by decide⟩

theorem decLast : Statement .decLast := ⟨by decide, by decide, by decide⟩

end Sys2Proof.Laws.Encoding
end

