-- ==== Sys2Proof/Laws/Step.lean ====
section
/-! SUPPORT. What one input and one step can do, said once; every invariant is derived from these. -/

namespace Sys2Proof.Machine

/-- A reply's host is all that `withoutHosts` forgets of it. -/
@[simp] theorem State.withoutHosts_reply (s : State) (host : Nat) (v : Word) :
    (s.reply host v).withoutHosts = s.withoutHosts.reply 0 v := rfl

@[simp] theorem State.withoutHosts_readReg (s : State) (off : Nat) : s.withoutHosts.readReg off = s.readReg off := rfl

/-- What a register write can do when it answers a next state. -/
theorem writeReg_next {off : Nat} {v : Word} {s t : State} (h : writeReg off v s = .next t) :
    (off = offCmd ∧ writeCmd v s = .next t) ∨
      (off = offStatus ∧ t = s.clearSelected v) ∨
      ((off = offConfig ∨ off = offDin) ∧ s.busy = true ∧ t = s.raise .errOvr) ∨
      (off = offConfig ∧ s.busy = false ∧ t = s.writeConfig v) ∨
      (off = offDin ∧ s.busy = false ∧ t = s.writeDin v) ∨
      t = s := by
  unfold writeReg at h
  split at h
  · exact .inl ⟨‹_›, h⟩
  · split at h
    · cases h; exact .inr (.inl ⟨‹_›, rfl⟩)
    · split at h
      · obtain ⟨-, ⟨hb, h⟩ | ⟨hb, h⟩⟩ := gateWrite_next h
        · exact .inr (.inr (.inl ⟨.inl ‹_›, hb, h⟩))
        · cases h; exact .inr (.inr (.inr (.inl ⟨‹_›, hb, rfl⟩)))
      · split at h
        · obtain ⟨-, ⟨hb, h⟩ | ⟨hb, h⟩⟩ := gateWrite_next h
          · exact .inr (.inr (.inl ⟨.inr ‹_›, hb, h⟩))
          · cases h; exact .inr (.inr (.inr (.inr (.inl ⟨‹_›, hb, rfl⟩))))
        · cases h; exact .inr (.inr (.inr (.inr (.inr rfl))))

/-- What an access can do when it answers a next state: nothing outside the window, and a read or a write of one register at
an aligned offset inside it. -/
theorem performAccess_next {a : Access} {s t : State} (h : performAccess a s = .next t) :
    (a.touches s.base = false ∧ t = s) ∨
      (a.touches s.base = true ∧ a.supported s.base = true ∧ s.inReset = false ∧
        ((a.kind = .read ∧ t = s.reply a.host (s.readReg (a.addr - s.base))) ∨
          ∃ v, a.kind = .write v ∧ writeReg (a.addr - s.base) v s = .next t)) := by
  unfold performAccess at h
  split at h
  · cases h; simp_all
  · split at h
    · cases h
    · split at h
      · cases h
      · right
        refine ⟨by simp_all, by simp_all, by simp_all, ?_⟩
        split at h
        · cases h; exact .inl ⟨‹_›, rfl⟩
        · exact .inr ⟨_, ‹_›, h⟩

/-- What a step can do when it answers a next state. -/
theorem step_next {s t : State} (h : step s = .next t) :
    (s.inputs = [] ∧ t = s.complete) ∨
      ∃ x rest, s.inputs = x :: rest ∧
        ((∃ a, x = .access a ∧ performAccess a (s.setInputs rest) = .next t) ∨
          (x = .blockTurn ∧ t = (s.setInputs rest).complete) ∨
          (x = .assertReset ∧ t = (s.setInputs rest).assertReset) ∨
          (x = .releaseReset ∧ t = (s.setInputs rest).releaseReset)) := by
  unfold step takeTurn at h
  split at h
  · cases h; exact .inl ⟨‹_›, rfl⟩
  · rename_i x rest hx
    refine .inr ⟨x, rest, hx, ?_⟩
    cases x with
    | access a => exact .inl ⟨a, rfl, h⟩
    | blockTurn => cases h; exact .inr (.inl ⟨rfl, rfl⟩)
    | assertReset => cases h; exact .inr (.inr (.inl ⟨rfl, rfl⟩))
    | releaseReset => cases h; exact .inr (.inr (.inr ⟨rfl, rfl⟩))

/-- The step with an input at its head performs that input. -/
theorem step_setInputs_cons (s : State) (x : Input) (rest : List Input) :
    step (s.setInputs (x :: rest)) = performInput x (s.setInputs rest) := rfl

/-- Reaching the window, in numbers. -/
theorem touches_iff (a : Access) (base : Nat) :
    a.touches base = true ↔ a.addr < base + 32 ∧ base < a.addr + a.bytes := by
  simp [Access.touches, Config.windowBytes]

/-- The defined form of an access, in numbers. -/
theorem supported_iff (a : Access) (base : Nat) :
    a.supported base = true ↔ a.bytes = 4 ∧ base ≤ a.addr ∧ (a.addr - base) % 4 = 0 := by
  simp [Access.supported, Config.accessBytes, and_assoc]

/-- BASE in numbers. -/
theorem base_eq (s : State) : s.base = 32 * s.window := rfl

/-! ### One register at a time -/

theorem writeReg_cmd (v : Word) (s : State) : writeReg 0x00 v s = writeCmd v s := rfl

theorem writeReg_status (v : Word) (s : State) : writeReg 0x04 v s = .next (s.clearSelected v) := rfl

theorem writeReg_config (v : Word) (s : State) :
    writeReg 0x08 v s = gateWrite s fun s => .next (s.writeConfig v) := rfl

theorem writeReg_din (v : Word) (s : State) : writeReg 0x0C v s = gateWrite s fun s => .next (s.writeDin v) := rfl

theorem writeReg_ignored {off : Nat} (h : off ∉ [0x00, 0x04, 0x08, 0x0C]) (v : Word) (s : State) :
    writeReg off v s = .next s := by
  simp at h
  simp [writeReg, offCmd, offStatus, offConfig, offDin, h]

/-- A 32-bit access of the window at an aligned offset is of the defined form. -/
theorem wordAccess_ok {s : State} {h off : Nat} {k : AccessKind} (ho : off < 32) (h4 : off % 4 = 0) :
    (Access.mk h (s.base + off) Config.accessBytes k).touches s.base = true ∧
      (Access.mk h (s.base + off) Config.accessBytes k).supported s.base = true := by
  constructor
  · simp only [Access.touches, Config.windowBytes, Config.accessBytes, Bool.and_eq_true, decide_eq_true_eq]
    omega
  · simp [Access.supported, Config.accessBytes, h4]

/-- A 32-bit write at an aligned offset of the window, outside reset, writes that register. -/
theorem performInput_wordWrite {s : State} (hr : s.inReset = false) {h off : Nat} {v : Word} (ho : off < 32)
    (h4 : off % 4 = 0) : performInput (s.wordWrite h off v) s = writeReg off v s := by
  obtain ⟨ht, hs⟩ := wordAccess_ok (s := s) (h := h) (k := .write v) ho h4
  simp [performInput, State.wordWrite, performAccess, ht, hs, hr]

/-- A 32-bit read at an aligned offset of the window, outside reset, answers that register's value. -/
theorem performInput_wordRead {s : State} (hr : s.inReset = false) {h off : Nat} (ho : off < 32)
    (h4 : off % 4 = 0) : performInput (s.wordRead h off) s = .next (s.reply h (s.readReg off)) := by
  obtain ⟨ht, hs⟩ := wordAccess_ok (s := s) (h := h) (k := .read) ho h4
  simp [performInput, State.wordRead, performAccess, ht, hs, hr]

/-- Every case of an access that answers a next state, with no function of the port left in it: it changed nothing, or, outside
reset, it was dropped, raised ErrCmd, was accepted, cleared sticky bits, wrote CONFIG or DIN, or was a read. -/
theorem performAccess_cases {a : Access} {s t : State} (h : performAccess a s = .next t) :
    t = s ∨ (s.inReset = false ∧
      ((s.busy = true ∧ t = s.raise .errOvr) ∨
        (s.busy = false ∧ t = s.raise .errCmd) ∨
        (s.busy = false ∧ ∃ o, t = s.accept o) ∨
        (∃ v, a.addr = s.base + 0x04 ∧ a.kind = .write v ∧ t = s.clearSelected v) ∨
        (∃ v, s.busy = false ∧ a.addr = s.base + 0x08 ∧ a.kind = .write v ∧ t = s.writeConfig v) ∨
        (∃ v, s.busy = false ∧ a.addr = s.base + 0x0C ∧ a.kind = .write v ∧ t = s.writeDin v) ∨
        (a.kind = .read ∧ ∃ v, t = s.reply a.host v))) := by
  obtain ⟨-, rfl⟩ | ⟨-, hs, hr, ⟨hk, rfl⟩ | ⟨v, hk, hw⟩⟩ := performAccess_next h
  · exact .inl rfl
  · exact .inr ⟨hr, .inr (.inr (.inr (.inr (.inr (.inr ⟨hk, _, rfl⟩)))))⟩
  · obtain ⟨-, hs, -⟩ := (supported_iff _ _).1 hs
    obtain ⟨-, h⟩ | ⟨ho, rfl⟩ | ⟨-, hb, rfl⟩ | ⟨ho, hb, rfl⟩ | ⟨ho, hb, rfl⟩ | rfl := writeReg_next hw
    · obtain ⟨-, ⟨hb, rfl⟩ | ⟨hb, rfl | ⟨o, rfl⟩ | rfl⟩⟩ := writeCmd_next h
      · exact .inr ⟨hr, .inl ⟨hb, rfl⟩⟩
      · exact .inl rfl
      · exact .inr ⟨hr, .inr (.inr (.inl ⟨hb, o, rfl⟩))⟩
      · exact .inr ⟨hr, .inr (.inl ⟨hb, rfl⟩)⟩
    · simp only [offStatus] at ho
      exact .inr ⟨hr, .inr (.inr (.inr (.inl ⟨v, by omega, hk, rfl⟩)))⟩
    · exact .inr ⟨hr, .inl ⟨hb, rfl⟩⟩
    · simp only [offConfig] at ho
      exact .inr ⟨hr, .inr (.inr (.inr (.inr (.inl ⟨v, hb, by omega, hk, rfl⟩))))⟩
    · simp only [offDin] at ho
      exact .inr ⟨hr, .inr (.inr (.inr (.inr (.inr (.inl ⟨v, hb, by omega, hk, rfl⟩)))))⟩
    · exact .inl rfl

/-! ## Runs of several steps -/

theorem run_zero (s : State) : run 0 s = .next s := rfl

/-- A run whose first step answers a next state goes on from it. -/
theorem run_succ {s t : State} (h : step s = .next t) (n : Nat) : run (n + 1) s = run n t := by
  simp [run, h]

/-- One step of the host's run, whatever the step answers. -/
theorem hostRun_succ {M : Host.Core} (n : Nat) (s : M.State) :
    (∀ t, M.step s = .next t → M.run (n + 1) s = M.run n t) ∧
      (∀ f, M.step s = .fault f → M.run (n + 1) s = .fault f) ∧
      (∀ r, M.step s = .refused r → M.run (n + 1) s = .refused r) := by
  refine ⟨fun t h => ?_, fun f h => ?_, fun r h => ?_⟩ <;> simp [Host.Core.run, h]

/-- `run` is the host's `Core.run` of this machine. -/
theorem core_run_eq_run (n : Nat) (s : State) : Host.Core.run core n s = run n s := by
  induction n generalizing s with
  | zero => rfl
  | succ n ih =>
    obtain ⟨hn, hf, hr⟩ := hostRun_succ (M := core) n s
    simp only [run]
    cases h : step s with
    | next t => exact (hn t h).trans (ih t)
    | fault f => exact hf f h
    | refused r => exact hr r h

end Sys2Proof.Machine
end

