-- ==== Sys2Proof/Laws/Tables.lean ====
section
/-! SUPPORT. The decoding ROM against the search that defines it (40_lookup_tables.md R104), and its classes (R106). -/

namespace Sys2Proof.Machine

/-- The search of R104: the index of the code unit in the alphabet, if it has one. -/
def alphabetIndex (c : Byte) : Option Sextet :=
  ((List.range 64).map (BitVec.ofNat 6)).find? fun i => alphabet i == c

/-- The dense ROM holds what R104's definition gives, at all 256 code units. -/
theorem dectab_eq_search (c : Byte) :
    dectab c = (match alphabetIndex c with
      | some i => i.setWidth 7
      | none   => if c = pad then 64 else 80) := by
  revert c; decide +kernel

/-- Every entry is in one of the three classes of R106. -/
theorem dectab_class (c : Byte) : (dectab c).toNat ≤ 63 ∨ dectab c = 64 ∨ dectab c = 80 := by
  revert c; decide +kernel

/-- Only PAD has the padding sentinel (R142). -/
theorem dectab_eq_64_iff (c : Byte) : dectab c = 64 ↔ c = pad := by
  revert c; decide +kernel

/-- A code unit is in the alphabet exactly when some index has it. -/
theorem inAlphabet_iff (c : Byte) : inAlphabet c = true ↔ ∃ i, alphabet i = c := by
  revert c; decide +kernel

end Sys2Proof.Machine
end

