-- ==== Sys2Proof/Tests/Slice0.lean ====
section
/-! SUPPORT. Tests. Expected values are those of 95_test_vectors.md (the vector's name stands in each comment) or of the rule cited;
and one witness for the hypotheses of each statement in Certificates/Slice0/Obligations.lean. -/

namespace Sys2Proof.Tests

open Sys2Proof.Machine

/-! ## WellFormed: an ill-formed term for each check (R80, R89) -/

theorem test_wf_refuses_rsv : Cmd32.wf { rsv := 1, last := 0, cnt := 0, op := 0 } = false := by decide

theorem test_wf_refuses_op : Cmd32.wf { rsv := 0, last := 0, cnt := 0, op := 3 } = false := by decide

theorem test_wf_refuses_enc_count_zero : Cmd32.wf { rsv := 0, last := 0, cnt := 0, op := 1 } = false := by decide

theorem test_wf_refuses_dec_count : Cmd32.wf { rsv := 0, last := 0, cnt := 1, op := 2 } = false := by decide

theorem test_wf_refuses_enc_last : Cmd32.wf { rsv := 0, last := 1, cnt := 1, op := 1 } = false := by decide

/-! ## Decoding, from words written bit by bit as R80 has them: RSV, LAST, CNT, OP (VC1) -/

theorem test_decode_nop : decodeWord 0b0000000000000000000000000_0_00_0000 = .instr .nop := by decide

theorem test_decode_enc1 : decodeWord 0b0000000000000000000000000_0_01_0001 = .instr .enc1 := by decide

theorem test_decode_enc2 : decodeWord 0b0000000000000000000000000_0_10_0001 = .instr .enc2 := by decide

theorem test_decode_enc3 : decodeWord 0b0000000000000000000000000_0_11_0001 = .instr .enc3 := by decide

theorem test_decode_dec : decodeWord 0b0000000000000000000000000_0_00_0010 = .instr .dec := by decide

theorem test_decode_decLast : decodeWord 0b0000000000000000000000000_1_00_0010 = .instr .decLast := by decide

/-- VC1's ten reserved words, each with the class R89 gives it. -/
theorem test_decode_reserved :
    [0x00000001, 0x00000041, 0x00000051, 0x00000012, 0x00000003, 0x0000000F, 0x00000040, 0x00000080, 0x80000031,
      0xFFFFFFFF].map decodeWord =
    [.reserved .encCountZero, .reserved .encLast, .reserved .encLast, .reserved .decCount, .reserved .opReserved,
      .reserved .opReserved, .reserved .nopLast, .reserved .rsvNonzero, .reserved .rsvNonzero, .reserved .rsvNonzero] := by
  decide

/-! ## The commands: DOUT and STATUS after acceptance and completion from reset, with DIN and STRICT given -/

/-- DOUT and STATUS after the command's acceptance and completion. -/
def after (i : Instr) (strict : Bool) (din : Word) : Option (Word × Word) :=
  (nextState (exec i { State.reset with strict := strict, din := din })).map fun t =>
    (t.complete.dout, t.complete.statusWord)

/-- R176. -/
theorem test_nop_leaves_reset : nextState (exec .nop State.reset) = some State.reset := by decide

/-- VE17. -/
theorem test_enc1_last_bits : after .enc1 false 0x00FF0000 = some (0x2F773D3D, 0x00000028) := by decide +kernel

/-- VE21: DIN[31:24] is ignored. -/
theorem test_enc1_ignores_lanes : after .enc1 false 0xAB800000 = some (0x67413D3D, 0x00000028) := by decide +kernel

/-- VE12. -/
theorem test_enc2_ones : after .enc2 false 0x00FFFF00 = some (0x2F2F383D, 0x00000018) := by decide +kernel

/-- VE15: both unused lanes are ignored. -/
theorem test_enc2_ignores_lanes : after .enc2 false 0xFF00FCFF = some (0x4150773D, 0x00000018) := by decide +kernel

/-- VE6: indices 62 and 63. -/
theorem test_enc3_symbols : after .enc3 false 0x00FBFF00 = some (0x2B2F3841, 0x00000008) := by decide +kernel

/-- VE7: each lane's place. -/
theorem test_enc3_lanes : after .enc3 true 0x00001083 = some (0x41424344, 0x00000008) := by decide +kernel

/-- VD11: `trunc_8` drops bit 6 of v1. -/
theorem test_dec_truncates : after .dec false 0x2A414141 = some (0x00400000, 0x00000046) := by decide +kernel

/-- VD14: strict rejection. -/
theorem test_dec_strict_rejects : after .dec true 0x5A6D392A = some (0x00000000, 0x00000440) := by decide +kernel

/-- VD24: PAD in lane 3 only. -/
theorem test_decLast_misplaced_pad : after .decLast false 0x5A6D3D38 = some (0x0066603C, 0x00000046) := by decide +kernel

/-- VD33: strict mode accepts legal padding. -/
theorem test_decLast_one_pad : after .decLast true 0x5A6D383D = some (0x00666F00, 0x00000014) := by decide +kernel

/-! ## The port -/

/-- A state with no input but the one given. -/
def withInput (s : State) (x : Input) : State := s.setInputs [x]

/-- `BUSY`: enc.3 is pending on "foo" (VC2 after step 2), at another BASE. -/
def busy : State :=
  { State.reset with
    window := 5, din := 0x00666F6F, busy := true
    pend := some { operation := .enc .three, din := 0x00666F6F, strict := false } }

/-- The command word of a row, placed and run as the first instruction after reset. -/
theorem test_fetch_enc3 :
    nextState (step (State.reset.withFetchWord 32 0x31)) =
      some { State.reset with busy := true, pend := some { operation := .enc .three, din := 0, strict := false } } := by
  decide

/-- VC2 step 6: a reserved word while BUSY raises ErrOvr only. -/
theorem test_busy_reserved_word :
    (nextState (step (withInput busy (busy.wordWrite 0 0x00 0x00000001)))).map State.statusWord = some 0x00000201 := by
  decide +kernel

/-- VC2 step 10: even nop is dropped. -/
theorem test_busy_nop :
    (nextState (step (withInput busy (busy.wordWrite 0 0x00 0x00000000)))).map State.statusWord = some 0x00000201 := by
  decide +kernel

/-- VR1: W 0x04 0xFFFFFFFF with STATUS = 0x00000746 gives 0x00000046. -/
theorem test_status_clear :
    (nextState (step (withInput { State.reset with outlen := 3, inv := true, errCmd := true, errOvr := true, errEnc := true }
      (State.reset.wordWrite 0 0x04 0xFFFFFFFF)))).map State.statusWord = some 0x00000046 := by
  decide +kernel

/-- VR1: W 0x08 0xFFFFFFFF, then R 0x08, returns 0x00000001. -/
theorem test_config_reserved_bits :
    (nextState (step (withInput State.reset (State.reset.wordWrite 0 0x08 0xFFFFFFFF)))).map (State.readReg · 0x08) =
      some 0x00000001 := by
  decide +kernel

/-- VR3: an access at offset 0x02 is refused. -/
theorem test_misaligned_refused :
    refusal (step (withInput State.reset (State.reset.wordWrite 0 0x02 0x00000000))) = some .unsupportedAccess := by
  decide

/-- V5, V6: "foobar" and "Zm9vYmFy". -/
theorem test_message :
    encodeMessage [0x66, 0x6F, 0x6F, 0x62, 0x61, 0x72] = [0x5A, 0x6D, 0x39, 0x76, 0x59, 0x6D, 0x46, 0x79] ∧
    decodeMessage false [0x5A, 0x6D, 0x39, 0x76, 0x59, 0x6D, 0x46, 0x79] = some [0x66, 0x6F, 0x6F, 0x62, 0x61, 0x72] := by
  decide +kernel

/-! ## Witnesses: a concrete case that meets the hypotheses of each statement -/

/-- A ready state with "foo" in DIN, STRICT set, ERR_OVR set, and another BASE. -/
def ready : State := { State.reset with window := 5, din := 0x00666F6F, strict := true, errOvr := true }

/-- Enc3EncodesTriple, Enc2EncodesTwoBytes, Enc1EncodesOneByte, DecDecodesQuadruple, DecLastDecodesFinalGroup: both cases. -/
theorem witness_commands : ready.Ready ∧ busy.inReset = false ∧ busy.busy = true := by decide

/-- NopChangesNothing. -/
theorem witness_nop : ready.Ready ∧ ready.errCmd = false ∧ busy.inReset = false ∧ busy.busy = true := by decide

/-- ReservedClassesRejected: one word of each class. -/
theorem witness_reserved_classes :
    (0x00000080 : Word).extractLsb' 7 25 ≠ 0 ∧ 3 ≤ ((0x00000003 : Word).extractLsb' 0 4).toNat ∧
    ((0x00000001 : Word).extractLsb' 0 4 = 1 ∧ (0x00000001 : Word).extractLsb' 4 2 = 0) ∧
    ((0x00000041 : Word).extractLsb' 0 4 = 1 ∧ (0x00000041 : Word).getLsbD 6 = true) ∧
    ((0x00000012 : Word).extractLsb' 0 4 = 2 ∧ (0x00000012 : Word).extractLsb' 4 2 ≠ 0) ∧
    ((0x00000040 : Word).extractLsb' 0 4 = 0 ∧ (0x00000040 : Word).getLsbD 6 = true) := by decide

/-- DecLastDecodesFinalGroup: its last clause, where lane 3 is PAD. -/
theorem witness_decLast_unpadded : (0x5A6D3D38 : Word).extractLsb' 0 8 ≠ pad := by decide

/-- AlphabetClosure: the last clause. -/
theorem witness_alphabet_closure : (0x5A : Byte) ∈ charsOf (encResult .one 0x00660000).dout ∧ (0x5A : Byte) ≠ pad := by
  decide +kernel

/-- DectabDefinition: each clause. -/
theorem witness_dectab :
    alphabet 63 = 0x2F ∧ (0x3D : Byte) = pad ∧ (∀ i : Sextet, alphabet i ≠ 0x2A) ∧ (0x2A : Byte) ≠ pad := by decide +kernel

/-- EncoderInjective: each hypothesis, on unequal DINs. -/
theorem witness_injective :
    (resultEnc3 0x00666F6F).dout = (resultEnc3 0xFF666F6F).dout ∧
    (resultEnc2 0x00666F00).dout = (resultEnc2 0xFF666F99).dout ∧
    (resultEnc1 0x00660000).dout = (resultEnc1 0xAB661234).dout := by decide +kernel

/-- PaddingDetection: "Zg==", "Zm8=", "Zm9v". -/
theorem witness_padding :
    ((0x5A673D3D : Word).extractLsb' 0 8 = pad ∧ (0x5A673D3D : Word).extractLsb' 8 8 = pad) ∧
    ((0x5A6D383D : Word).extractLsb' 0 8 = pad ∧ (0x5A6D383D : Word).extractLsb' 8 8 ≠ pad) ∧
    (0x5A6D3976 : Word).extractLsb' 0 8 ≠ pad := by decide

/-- A state in which a decoder command is pending on "Zm*=". -/
def pendingDec (last strict : Bool) : State :=
  { State.reset with
    din := 0x5A6D2A3D, strict := strict, busy := true
    pend := some { operation := .dec last, din := 0x5A6D2A3D, strict := strict } }

/-- StrictMode: both parts. -/
theorem witness_strict :
    (pendingDec true true).pend = some { operation := .dec true, din := 0x5A6D2A3D, strict := true } ∧
    (decResult true 0x5A6D2A3D false).inv = true ∧ (decResult true 0x5A6D383D false).inv = false := by decide +kernel

/-- BaselineMode. -/
theorem witness_baseline :
    (pendingDec true false).pend = some { operation := .dec true, din := 0x5A6D2A3D, strict := false } := by decide

/-- AcceptanceLatchesOperands, PendingFieldsAreTheWords. -/
theorem witness_acceptance : operationOf .decLast = some (.dec true) ∧ ready.Ready := by decide

/-- CompletionWritesResult. -/
theorem witness_completion : busy.pend = some { operation := .enc .three, din := 0x00666F6F, strict := false } := by decide

/-- TurnWithoutInputs: each part. -/
theorem witness_turn :
    (busy.pend = some { operation := .enc .three, din := 0x00666F6F, strict := false } ∧ busy.inputs = []) ∧
    ready.Ended ∧ ready.pend = none := by decide

/-- ReservedWordRaisesErrCmd, in a ready and in a busy state. -/
theorem witness_reserved_word :
    decodeWord 0x00000001 = .reserved .encCountZero ∧ ready.inReset = false ∧ busy.inReset = false ∧ busy.busy = true := by
  decide

/-- BusyDropsWrites: each part, each offset. -/
theorem witness_busy_drops :
    busy.inReset = false ∧ busy.busy = true ∧ (0x00 ∈ [0x00, 0x08, 0x0C] ∧ 0x08 ∈ [0x00, 0x08, 0x0C] ∧ 0x0C ∈ [0x00, 0x08, 0x0C]) ∧
    ready.inReset = false ∧ ready.busy = false := by decide

/-- StepRunsDecodedInstruction. -/
theorem witness_step_runs : decodeWord 0x00000042 = .instr .decLast := by decide

/-- CommandFrame: a command that answers a next state when ready, and when busy. -/
theorem witness_frame : (∃ t, exec .enc1 ready = .next t) ∧ ready.busy = false ∧ (∃ t, exec .dec busy = .next t) ∧
    busy.busy = true := ⟨⟨_, rfl⟩, rfl, ⟨_, rfl⟩, rfl⟩

/-- PendingShowsOldResults. -/
theorem witness_pending_shows : ready.Ready ∧ Instr.enc2 ≠ .nop := by decide

/-- ResultDependsOnOperandsOnly: two states that differ in STRICT and in the results they hold. -/
theorem witness_result_depends :
    Instr.enc3 ≠ .nop ∧ ready.Ready ∧ State.Ready { State.reset with din := 0x00666F6F, dout := 0x41414141, outlen := 4 } ∧
    ready.din = 0x00666F6F := by decide

/-- EveryRunEnds: a run with an access of the window, one outside it, and a turn. -/
theorem witness_every_run_ends :
    ready.inReset = false ∧
    ∀ x ∈ [ready.wordWrite 1 0x00 0x31, .blockTurn, .access ⟨0, 0x1000, 1, .read⟩],
      x = .blockTurn ∨ ∃ a, x = .access a ∧ (a.touches ready.base = false ∨ a.supported ready.base = true) := by
  refine ⟨rfl, fun x hx => ?_⟩
  simp only [List.mem_cons, List.not_mem_nil, or_false] at hx
  rcases hx with rfl | rfl | rfl
  · exact .inr ⟨_, rfl, .inr (by decide)⟩
  · exact .inl rfl
  · exact .inr ⟨_, rfl, .inl (by decide)⟩

/-- GroupSequenceReadsResult. -/
theorem witness_group :
    ready.Ready ∧ commandResult .enc3 0x00666F6F ready.strict = some ⟨0x5A6D3976, 4, 0, false, false⟩ := by decide +kernel

/-- WindowReads: the first and the last offset of the map; ReadsAreIdempotent, StatusWriteOneToClear, ReservedPlaces share the
premise on reset. -/
theorem witness_window_reads :
    ready.inReset = false ∧
    (0x00, (0 : Word)) ∈ [(0x00, (0 : Word)), (0x04, ready.statusWord), (0x08, (BitVec.ofBool ready.strict).setWidth 32),
      (0x0C, ready.din), (0x10, ready.dout), (0x14, 0), (0x18, 0), (0x1C, 0)] ∧
    (0x1C, (0 : Word)) ∈ [(0x00, (0 : Word)), (0x04, ready.statusWord), (0x08, (BitVec.ofBool ready.strict).setWidth 32),
      (0x0C, ready.din), (0x10, ready.dout), (0x14, 0), (0x18, 0), (0x1C, 0)] ∧
    0x1C < 32 ∧ 0x1C % 4 = 0 := by
  refine ⟨rfl, ?_, ?_, ?_, ?_⟩ <;> simp

/-- UnsupportedAccessRefused: a byte at the window's last address, and a misaligned word. -/
theorem witness_unsupported :
    ready.inReset = false ∧ (ready.base ≤ 191 ∧ 191 < ready.base + 32 ∧ 0 < 1 ∧ (1 ≠ 4 ∨ (191 - ready.base) % 4 ≠ 0)) ∧
    (ready.base ≤ 162 ∧ 162 < ready.base + 32 ∧ 0 < 4 ∧ (4 ≠ 4 ∨ (162 - ready.base) % 4 ≠ 0)) := by decide

/-- OutsideWindowIgnored: just below and just above the window. -/
theorem witness_outside : 156 + 4 ≤ ready.base ∧ ready.base + 32 ≤ 192 := by decide

/-- AtMostOneEventPerStep: an access, a block's turn, and no input. -/
theorem witness_one_event :
    (∃ t, step (withInput ready (ready.wordWrite 0 0x00 0x1)) = .next t) ∧
    (∃ t, step (withInput (pendingDec true true) .blockTurn) = .next t) ∧ ∃ t, step (pendingDec true true) = .next t :=
  ⟨⟨_, rfl⟩, ⟨_, rfl⟩, ⟨_, rfl⟩⟩

/-- StickyUntilClearedOrReset: a step that clears ERR_OVR. -/
theorem witness_sticky :
    ∃ t, step (withInput ready (ready.wordWrite 0 0x04 0x200)) = .next t ∧ ready.sticky .errOvr = true ∧
      t.sticky .errOvr = false := ⟨_, rfl, rfl, by decide⟩

/-- ResultsChangeOnlyAtCompletion: a step that changes OUTLEN. -/
theorem witness_results_change : ∃ t, step (withInput busy .blockTurn) = .next t ∧ t.outlen ≠ busy.outlen :=
  ⟨_, rfl, by decide⟩

/-- OperandsChangeOnlyByWrite: a step that changes DIN, and one that changes STRICT. -/
theorem witness_operands_change :
    (∃ t, step (withInput ready (ready.wordWrite 0 0x0C 0)) = .next t ∧ t.din ≠ ready.din) ∧
    ∃ t, step (withInput ready (ready.wordWrite 0 0x08 0)) = .next t ∧ t.strict ≠ ready.strict :=
  ⟨⟨_, rfl, by decide⟩, ⟨_, rfl, by decide⟩⟩

/-- The busy state meets the invariant. -/
theorem busy_inv (rest : List Input) : (busy.setInputs rest).Inv := ⟨rfl, rfl, rfl, by simp [busy, State.reset]⟩

/-- PendingRecordStable: a step after which the record is gone. -/
theorem witness_pending_stable :
    ∃ t p, (withInput busy .blockTurn).Inv ∧ (withInput busy .blockTurn).pend = some p ∧
      step (withInput busy .blockTurn) = .next t ∧ t.pend ≠ some p :=
  ⟨_, _, busy_inv _, rfl, rfl, by decide⟩

/-- StepKeepsInvariant. -/
theorem witness_step_inv : ∃ t, (withInput busy .blockTurn).Inv ∧ step (withInput busy .blockTurn) = .next t :=
  ⟨_, busy_inv _, rfl⟩

/-- AccessDuringResetRefused, ResetKeepsModelFields: the window's first and last address. -/
theorem witness_in_reset :
    ready.assertReset.inReset = true ∧ (ready.assertReset.base ≤ 160 ∧ 160 < ready.assertReset.base + 32 ∧ 0 < 4) ∧
    (ready.assertReset.base ≤ 191 ∧ 191 < ready.assertReset.base + 32 ∧ 0 < 1) := by decide

/-- InstancesShareNothing: both parts. -/
theorem witness_instances :
    (∃ sys', System.stepAt 0 [busy, ready] = .next sys' ∧ (1 : Nat) ≠ 0) ∧
    (Access.supported ⟨0, busy.base, 4, .read⟩ busy.base = true ∧ Access.touches ⟨0, busy.base, 4, .read⟩ busy.base = true ∧
      State.reset.window ≠ busy.window) := ⟨⟨_, rfl, by decide⟩, by decide⟩

end Sys2Proof.Tests
end

section
/-! Several blocks side by side (00_scope.md R8, 60_exceptions.md R213): a step of one replaces its own state only, and the
windows of two blocks with different BASE are apart. -/

namespace Sys2Proof.Machine

/-- What a step of block `k` can do to the system when it answers a next one: nothing where there is no block `k`, and else
that block's own step, written in its own place. -/
theorem System.stepAt_next {sys sys' : System} {k : Nat} (h : sys.stepAt k = .next sys') :
    (sys[k]? = none ∧ sys' = sys) ∨ ∃ s t, sys[k]? = some s ∧ step s = .next t ∧ sys' = sys.set k t := by
  unfold System.stepAt at h
  split at h
  · cases h; exact .inl ⟨‹_›, rfl⟩
  · rename_i s hs
    split at h
    · rename_i t ht
      cases h; exact .inr ⟨s, t, hs, ht, rfl⟩
    · cases h
    · cases h

/-- The frame of a system's step: every block but the one that steps stays as it was. -/
theorem System.stepAt_getElem?_ne {sys sys' : System} {k j : Nat} (h : sys.stepAt k = .next sys') (hjk : j ≠ k) :
    sys'[j]? = sys[j]? := by
  obtain ⟨-, rfl⟩ | ⟨s, t, -, -, rfl⟩ := System.stepAt_next h
  · rfl
  · exact List.getElem?_set_ne hjk.symm

/-- An access of the defined form that reaches a window lies inside it with all its bytes: a word at an aligned offset below
32 starts at offset 28 or before. -/
theorem Access.within_window {a : Access} {base : Nat} (hsup : a.supported base = true) (htouch : a.touches base = true) :
    base ≤ a.addr ∧ a.addr + a.bytes ≤ base + 32 := by
  obtain ⟨hbytes, hbase, haligned⟩ := (supported_iff a base).1 hsup
  obtain ⟨hstart, -⟩ := (touches_iff a base).1 htouch
  omega

/-- Two windows at different multiples of 32 have no byte in common. -/
theorem windows_disjoint {s t : State} (h : t.window ≠ s.window) : t.base + 32 ≤ s.base ∨ s.base + 32 ≤ t.base := by
  rw [base_eq, base_eq]
  omega

/-- An access inside one block's window reaches no window that is apart from it. -/
theorem Access.touches_other_window {s t : State} {a : Access} (hsup : a.supported s.base = true)
    (htouch : a.touches s.base = true) (hst : t.window ≠ s.window) : a.touches t.base = false := by
  obtain ⟨hfirst, hlast⟩ := Access.within_window hsup htouch
  have hapart := windows_disjoint hst
  rw [Bool.eq_false_iff, Ne, touches_iff]
  omega

/-- Settles O59, from the frame of a system's step and the disjointness of the windows. -/
theorem instancesShareNothing : Obligations.InstancesShareNothing :=
  ⟨fun _ _ _ _ hstep hjk => System.stepAt_getElem?_ne hstep hjk,
    fun _ _ _ hsup htouch hst => Access.touches_other_window hsup htouch hst⟩

end Sys2Proof.Machine
end

section
/-! The invariant of a block's state (10_state.md R27, R40; 30_encoding.md R86, R87): a completion writes result registers of the
shape it asks for, and every operation a step can perform keeps it. -/

namespace Sys2Proof.Machine

/-! ## The lanes of a packed result -/

/-- Reading the four lanes of packed characters gives the characters back (R85, R86). -/
@[simp] theorem decLanes_packChars (c : Chars4) : decLanes (packChars c) = c := by
  simp only [decLanes, packChars]
  congr 1 <;> grind

/-- A decoder result holds its bytes in the three low lanes, under a zero lane (R87). -/
@[simp] theorem decLanes_packBytes (b : Bytes3) : decLanes (packBytes b) = ⟨0, b.b0, b.b1, b.b2⟩ :=
  decLanes_packChars ⟨0, b.b0, b.b1, b.b2⟩

@[simp] theorem inAlphabet_alphabet (i : Sextet) : inAlphabet (alphabet i) = true := (inAlphabet_iff _).2 ⟨i, rfl⟩

/-! ## The results -/

@[simp] theorem resultOf_enc (cnt : EncCount) (din : Word) (strict : Bool) :
    resultOf (.enc cnt) din strict = encResult cnt din := by
  cases cnt <;> rfl

@[simp] theorem resultOf_dec (last : Bool) (din : Word) (strict : Bool) :
    resultOf (.dec last) din strict = decResult last din strict := by
  cases last <;> rfl

/-- A decoder command's result is the strict rejection, or holds one, two or three bytes with zero lanes beyond them (R87). -/
theorem decResult_bytes (last : Bool) (din : Word) (strict : Bool) :
    decResult last din strict = strictRejection ∨ ∃ (b : Bytes3) (inv : Bool),
      decResult last din strict = ⟨packBytes ⟨b.b0, 0, 0⟩, 1, 2, inv, false⟩ ∨
      decResult last din strict = ⟨packBytes ⟨b.b0, b.b1, 0⟩, 2, 1, inv, false⟩ ∨
      decResult last din strict = ⟨packBytes b, 3, 0, inv, false⟩ := by
  unfold decResult
  dsimp only
  split
  · exact .inl rfl
  · refine .inr ⟨regroup4 (lookup4 (decLanes din)),
      malformed (lookup4 (decLanes din)) (padThird last (decLanes din)) (padFourth last (decLanes din)), ?_⟩
    split
    · exact .inl rfl
    · split
      · exact .inr (.inl rfl)
      · exact .inr (.inr rfl)

/-- An encoder result has the shape for OUTLEN = 4: characters of the alphabet, then NPAD characters of padding (R86). -/
theorem resultShaped_finish_enc (s : State) (cnt : EncCount) (din : Word) :
    (s.finish (encResult cnt din)).resultShaped = true := by
  cases cnt <;> simp [State.resultShaped, encResult, encChars, EncCount.toNat]

/-- A decoder result has the shape for its OUTLEN, and so has the strict rejection (R87, R151). -/
theorem resultShaped_finish_dec (s : State) (last : Bool) (din : Word) (strict : Bool) :
    (s.finish (decResult last din strict)).resultShaped = true := by
  obtain h | ⟨b, inv, h | h | h⟩ := decResult_bytes last din strict <;> rw [h]
  · rfl
  all_goals simp [State.resultShaped]

/-- A completion leaves the result registers shaped as some result (R173). -/
theorem resultShaped_finish (s : State) (p : PendRec) : (s.finish p.result).resultShaped = true := by
  obtain ⟨o, din, strict⟩ := p
  cases o with
  | enc cnt => simpa [PendRec.result] using resultShaped_finish_enc s cnt din
  | dec last => simpa [PendRec.result] using resultShaped_finish_dec s last din strict

/-! ## What the invariant says of PEND -/

theorem copiesLive_of_pend_none {s : State} (h : s.pend = none) : s.copiesLive = true := by
  simp [State.copiesLive, h]

/-- With BUSY = 0 nothing is pending (R40). -/
theorem State.Inv.pend_of_not_busy {s : State} (h : s.Inv) (hb : s.busy = false) : s.pend = none := by
  simpa [hb] using h.busy_iff_pend

/-- Nothing is pending in reset (R230). -/
theorem State.Inv.pend_of_inReset {s : State} (h : s.Inv) (hr : s.inReset = true) : s.pend = none := by
  have hreset := h.held_in_reset hr
  simp only [State.registersReset, Bool.and_eq_true, Option.isNone_iff_eq_none] at hreset
  exact hreset.2

/-! ## Every operation keeps the invariant -/

/-- Outside reset the last clause of the invariant asks nothing. -/
theorem State.Inv.of_not_inReset {s : State} (hr : s.inReset = false) (hbusy : s.busy = s.pend.isSome)
    (hcopies : s.copiesLive = true) (hshape : s.resultShaped = true) : s.Inv :=
  ⟨hbusy, hcopies, hshape, fun h => by simp [hr] at h⟩

theorem State.Inv.setInputs {s : State} (h : s.Inv) (rest : List Input) : (s.setInputs rest).Inv :=
  ⟨h.busy_iff_pend, h.copies_live, h.result_shaped, h.held_in_reset⟩

theorem State.Inv.reply {s : State} (h : s.Inv) (host : Nat) (v : Word) : (s.reply host v).Inv :=
  ⟨h.busy_iff_pend, h.copies_live, h.result_shaped, h.held_in_reset⟩

/-- An event touches a sticky bit only. -/
theorem State.Inv.raise {s : State} (h : s.Inv) (hr : s.inReset = false) (e : Event) : (s.raise e).Inv := by
  cases e <;> exact .of_not_inReset hr h.busy_iff_pend h.copies_live h.result_shaped

theorem State.Inv.clearSelected {s : State} (h : s.Inv) (hr : s.inReset = false) (v : Word) : (s.clearSelected v).Inv :=
  .of_not_inReset hr h.busy_iff_pend h.copies_live h.result_shaped

/-- A new CONFIG meets no copy: a write of it is performed with nothing pending only (R60). -/
theorem State.Inv.writeConfig {s : State} (h : s.Inv) (hr : s.inReset = false) (hb : s.busy = false) (v : Word) :
    (s.writeConfig v).Inv :=
  .of_not_inReset hr h.busy_iff_pend (copiesLive_of_pend_none (h.pend_of_not_busy hb)) h.result_shaped

/-- A new DIN meets no copy: a write of it is performed with nothing pending only (R60). -/
theorem State.Inv.writeDin {s : State} (h : s.Inv) (hr : s.inReset = false) (hb : s.busy = false) (v : Word) :
    (s.writeDin v).Inv :=
  .of_not_inReset hr h.busy_iff_pend (copiesLive_of_pend_none (h.pend_of_not_busy hb)) h.result_shaped

/-- Acceptance sets BUSY with PEND, and latches the live operands (R171). -/
theorem State.Inv.accept {s : State} (h : s.Inv) (hr : s.inReset = false) (o : Operation) : (s.accept o).Inv :=
  .of_not_inReset hr rfl (by simp [State.copiesLive]) h.result_shaped

/-- A completion clears BUSY with PEND and writes a result; in reset there is none (R173, R230). -/
theorem State.Inv.complete {s : State} (h : s.Inv) : s.complete.Inv := by
  cases hp : s.pend with
  | none => rwa [complete_of_none hp]
  | some p =>
    have hr : s.inReset = false := Bool.eq_false_iff.2 fun hr => by simp [h.pend_of_inReset hr] at hp
    rw [complete_of_some hp]
    exact .of_not_inReset hr rfl rfl (resultShaped_finish s p)

theorem State.Inv.assertReset (s : State) : s.assertReset.Inv := ⟨rfl, rfl, rfl, fun _ => rfl⟩

theorem State.Inv.releaseReset {s : State} (h : s.Inv) : s.releaseReset.Inv :=
  .of_not_inReset rfl h.busy_iff_pend h.copies_live h.result_shaped

/-- Whatever an access does, it keeps the invariant. -/
theorem State.Inv.performAccess {a : Access} {s t : State} (h : s.Inv) (hstep : performAccess a s = .next t) : t.Inv := by
  obtain rfl | ⟨hr, ⟨-, rfl⟩ | ⟨-, rfl⟩ | ⟨-, o, rfl⟩ | ⟨v, -, -, rfl⟩ | ⟨v, hb, -, -, rfl⟩ | ⟨v, hb, -, -, rfl⟩ | ⟨-, v, rfl⟩⟩ :=
    performAccess_cases hstep
  · exact h
  · exact h.raise hr .errOvr
  · exact h.raise hr .errCmd
  · exact h.accept hr o
  · exact h.clearSelected hr v
  · exact h.writeConfig hr hb v
  · exact h.writeDin hr hb v
  · exact h.reply a.host v

/-- Settles O58: a step performs one input, and each of them keeps the invariant. -/
theorem stepKeepsInvariant : Obligations.StepKeepsInvariant := by
  intro s t h hstep
  obtain ⟨-, rfl⟩ | ⟨x, rest, -, ⟨a, -, hacc⟩ | ⟨-, rfl⟩ | ⟨-, rfl⟩ | ⟨-, rfl⟩⟩ := step_next hstep
  · exact h.complete
  · exact (h.setInputs rest).performAccess hacc
  · exact (h.setInputs rest).complete
  · exact .assertReset _
  · exact (h.setInputs rest).releaseReset

/-- Settles O57: the reset values, checked clause by clause. -/
theorem invariantAtReset : Obligations.InvariantAtReset := ⟨rfl, rfl, rfl, fun _ => rfl⟩

end Sys2Proof.Machine
end

section
/-! Commands, results and operands: what a CMD write leaves as it was, what a result depends on, when the registers change, and
where the fields of STATUS and of the pending record stand (10_state.md R23 to R27, R40, R41). -/

namespace Sys2Proof.Machine

/-! ## What a CMD write leaves unchanged -/

/-- A read of any register but STATUS sees CONFIG, DIN and DOUT only (R51). -/
theorem readReg_congr {s t : State} (hstrict : t.strict = s.strict) (hdin : t.din = s.din) (hdout : t.dout = s.dout)
    {off : Nat} (hoff : off ≠ 0x04) : t.readReg off = s.readReg off := by
  simp [State.readReg, State.configWord, hstrict, hdin, hdout, hoff]

theorem readReg_raise (s : State) (e : Event) {off : Nat} (hoff : off ≠ 0x04) : (s.raise e).readReg off = s.readReg off :=
  readReg_congr (by simp) (by simp) (by simp) hoff

theorem readReg_accept (s : State) (o : Operation) {off : Nat} (hoff : off ≠ 0x04) :
    (s.accept o).readReg off = s.readReg off :=
  readReg_congr (State.accept_strict s o) (State.accept_din s o) (State.accept_dout s o) hoff

/-- Settles O36, in the three cases of a command: dropped while BUSY, nop, accepted. -/
theorem commandFrame : Obligations.CommandFrame := by
  intro i s t hexec
  obtain ⟨-, ⟨hb, rfl⟩ | ⟨-, -, rfl⟩ | ⟨hb, o, ho, rfl⟩⟩ := exec_next hexec
  · simp +contextual [hb, readReg_raise]
  · simp
  · have hnop : i ≠ .nop := by rintro rfl; cases ho
    simp +contextual [hb, hnop, readReg_accept]

/-! ## What a result depends on -/

/-- A ready block accepts every command but nop (R171). -/
theorem exec_of_ready {i : Instr} {o : Operation} {s : State} (ho : operationOf i = some o) (hs : s.Ready) :
    exec i s = .next (s.accept o) := by
  rw [exec_eq_gate, gateWrite_of_ready hs, ho]

theorem exists_operationOf {i : Instr} (h : i ≠ .nop) : ∃ o, operationOf i = some o := by
  cases i with
  | nop => exact absurd rfl h
  | _ => exact ⟨_, rfl⟩

/-- The completion of a command just accepted writes its result on the operands of the moment (R171, R173). -/
theorem complete_accept (s : State) (o : Operation) :
    (s.accept o).complete = (s.accept o).finish (resultOf o s.din s.strict) :=
  complete_of_some (State.accept_pend s o)

/-- CONFIG.STRICT is no operand of an encoder command (R23). -/
theorem resultOf_congr {i : Instr} {o : Operation} (ho : operationOf i = some o) (din : Word) {b c : Bool}
    (h : b = c ∨ i = .enc1 ∨ i = .enc2 ∨ i = .enc3) : resultOf o din b = resultOf o din c := by
  obtain rfl | rfl | rfl | rfl := h
  · rfl
  all_goals cases ho; rfl

/-- Settles O38: both completions write the same result. -/
theorem resultDependsOnOperandsOnly : Obligations.ResultDependsOnOperandsOnly := by
  intro i s t hi hs ht hdin hstrict
  obtain ⟨o, ho⟩ := exists_operationOf hi
  have hresult : resultOf o s.din s.strict = resultOf o t.din t.strict := hdin ▸ resultOf_congr ho _ hstrict
  exact ⟨_, _, exec_of_ready ho hs, exec_of_ready ho ht, by simp [complete_accept, hresult]⟩

/-! ## When the registers change -/

/-- No access changes a result register (R26, R55). -/
theorem performAccess_results {a : Access} {s t : State} (h : performAccess a s = .next t) :
    t.dout = s.dout ∧ t.outlen = s.outlen ∧ t.npad = s.npad ∧ t.inv = s.inv := by
  obtain rfl | ⟨-, ⟨-, rfl⟩ | ⟨-, rfl⟩ | ⟨-, o, rfl⟩ | ⟨v, -, -, rfl⟩ | ⟨v, -, -, -, rfl⟩ | ⟨v, -, -, -, rfl⟩ | ⟨-, v, rfl⟩⟩ :=
    performAccess_cases h <;> simp

/-- An access changes an operand only as a write to CONFIG or to DIN with BUSY = 0 (R23, R24, R60). -/
theorem performAccess_operands {a : Access} {s t : State} (h : performAccess a s = .next t) :
    (t.din = s.din ∧ t.strict = s.strict) ∨
      (s.busy = false ∧ ∃ v, a.kind = .write v ∧
        ((a.addr = s.base + 0x08 ∧ t = s.writeConfig v) ∨ (a.addr = s.base + 0x0C ∧ t = s.writeDin v))) := by
  obtain rfl | ⟨-, ⟨-, rfl⟩ | ⟨-, rfl⟩ | ⟨-, o, rfl⟩ | ⟨v, -, -, rfl⟩ | ⟨v, hb, ha, hk, rfl⟩ | ⟨v, hb, ha, hk, rfl⟩ | ⟨-, v, rfl⟩⟩ :=
    performAccess_cases h
  · exact .inl ⟨rfl, rfl⟩
  · exact .inl ⟨rfl, rfl⟩
  · exact .inl ⟨rfl, rfl⟩
  · exact .inl ⟨rfl, rfl⟩
  · exact .inl ⟨rfl, rfl⟩
  · exact .inr ⟨hb, v, hk, .inl ⟨ha, rfl⟩⟩
  · exact .inr ⟨hb, v, hk, .inr ⟨ha, rfl⟩⟩
  · exact .inl ⟨rfl, rfl⟩

@[simp] theorem complete_din (s : State) : s.complete.din = s.din := by
  cases h : s.pend <;> simp [State.complete, h]

@[simp] theorem complete_strict (s : State) : s.complete.strict = s.strict := by
  cases h : s.pend <;> simp [State.complete, h]

/-- Settles O51: without a pending command the block's turn changes nothing, and no access changes a result. -/
theorem resultsChangeOnlyAtCompletion : Obligations.ResultsChangeOnlyAtCompletion := by
  intro s t hstep hne
  obtain ⟨hin, rfl⟩ | ⟨x, rest, hin, ⟨a, rfl, hacc⟩ | ⟨rfl, rfl⟩ | ⟨rfl, rfl⟩ | ⟨rfl, rfl⟩⟩ := step_next hstep
  · refine .inl ⟨fun hp => ?_, .inl hin⟩
    simp [complete_of_none hp] at hne
  · simp [performAccess_results hacc] at hne
  · refine .inl ⟨fun hp => ?_, .inr ⟨rest, hin⟩⟩
    simp [complete_of_none (s := s.setInputs rest) hp] at hne
  · exact .inr ⟨rest, hin⟩
  · simp at hne

/-- Settles O52: of the inputs, only reset and a write of the register itself change an operand. -/
theorem operandsChangeOnlyByWrite : Obligations.OperandsChangeOnlyByWrite := by
  intro s t hstep
  obtain ⟨-, rfl⟩ | ⟨x, rest, hin, ⟨a, rfl, hacc⟩ | ⟨-, rfl⟩ | ⟨rfl, -⟩ | ⟨-, rfl⟩⟩ := step_next hstep
  · simp
  · obtain ⟨hdin, hstrict⟩ | ⟨hb, v, hk, ⟨ha, rfl⟩ | ⟨ha, rfl⟩⟩ := performAccess_operands hacc
    · exact ⟨fun hne => absurd hdin hne, fun hne => absurd hstrict hne⟩
    · exact ⟨fun hne => absurd rfl hne, fun _ => .inr ⟨a, v, rest, hin, hb, ha, hk, rfl⟩⟩
    · exact ⟨fun _ => .inr ⟨a, rest, hin, hb, ha, hk⟩, fun hne => absurd rfl hne⟩
  · simp
  · exact ⟨fun _ => .inl ⟨rest, hin⟩, fun _ => .inl ⟨rest, hin⟩⟩
  · simp

/-! ## The places of fields -/

/-- STATUS bit by bit, from the concatenation that makes it (R27). -/
theorem statusWord_getLsbD (s : State) (i : Nat) : s.statusWord.getLsbD i =
    if i < 1 then s.busy
    else if i < 4 then s.outlen.getLsbD (i - 1)
    else if i < 6 then s.npad.getLsbD (i - 4)
    else if i < 7 then s.inv
    else if i < 8 then false
    else if i < 9 then s.errCmd
    else if i < 10 then s.errOvr
    else if i < 11 then s.errEnc
    else false := by
  simp only [State.statusWord, BitVec.getLsbD_append, BitVec.getLsbD_ofBool, BitVec.ofNat_eq_ofNat, BitVec.getLsbD_zero]
  grind (splits := 20)

/-- Settles O43: the fields wider than one bit are compared bit by bit. -/
theorem statusLayout : Obligations.StatusLayout := by
  intro s
  have houtlen : s.statusWord.extractLsb' 1 3 = s.outlen := by ext i hi; grind [statusWord_getLsbD]
  have hnpad : s.statusWord.extractLsb' 4 2 = s.npad := by ext i hi; grind [statusWord_getLsbD]
  have hhigh : s.statusWord.extractLsb' 11 21 = 0 := by ext i hi; grind [statusWord_getLsbD]
  simp [statusWord_getLsbD, houtlen, hnpad, hhigh, -BitVec.getLsbD_eq_getElem]

/-- Settles O30: the fields of each of the five words that are accepted. -/
theorem pendingFieldsAreTheWords : Obligations.PendingFieldsAreTheWords := by
  intro i o ho
  cases i with
  | nop => cases ho
  | _ => cases ho; decide

end Sys2Proof.Machine
end

section
/-! The register window (20_memory.md): what an access of each form does, what a 32-bit read or write does as the next step, and
which writes the BUSY gate stands before. -/

namespace Sys2Proof.Machine

/-! ## An access, case by case (R50, R54, R233) -/

/-- An access that reaches no byte of the window (R50; log entry 7). -/
theorem performAccess_of_not_touches {a : Access} {s : State} (ht : a.touches s.base = false) :
    performAccess a s = .next s := by
  simp [performAccess, ht]

theorem performAccess_of_inReset {a : Access} {s : State} (ht : a.touches s.base = true) (hr : s.inReset = true) :
    performAccess a s = .refused .accessDuringReset := by
  simp [performAccess, ht, hr]

theorem performAccess_of_not_supported {a : Access} {s : State} (ht : a.touches s.base = true) (hr : s.inReset = false)
    (hs : a.supported s.base = false) : performAccess a s = .refused .unsupportedAccess := by
  simp [performAccess, ht, hr, hs]

theorem performAccess_read {a : Access} {s : State} (ht : a.touches s.base = true) (hr : s.inReset = false)
    (hs : a.supported s.base = true) (hk : a.kind = .read) :
    performAccess a s = .next (s.reply a.host (s.readReg (a.addr - s.base))) := by
  simp [performAccess, ht, hr, hs, hk]

theorem performAccess_write {a : Access} {v : Word} {s : State} (ht : a.touches s.base = true) (hr : s.inReset = false)
    (hs : a.supported s.base = true) (hk : a.kind = .write v) :
    performAccess a s = writeReg (a.addr - s.base) v s := by
  simp [performAccess, ht, hr, hs, hk]

@[simp] theorem Access.touches_withHost (a : Access) (host base : Nat) :
    ({ a with host := host } : Access).touches base = a.touches base := rfl

@[simp] theorem Access.supported_withHost (a : Access) (host base : Nat) :
    ({ a with host := host } : Access).supported base = a.supported base := rfl

/-- With another host an access has the same outcome, or is a read and only its reply names the other host (R70, R210). -/
theorem performAccess_withHost (a : Access) (host : Nat) (s : State) :
    performAccess { a with host := host } s = performAccess a s ∨
      ∃ v, performAccess a s = .next (s.reply a.host v) ∧
        performAccess { a with host := host } s = .next (s.reply host v) := by
  cases ht : a.touches s.base with
  | false => exact .inl (by simp [performAccess_of_not_touches, ht])
  | true =>
    cases hr : s.inReset with
    | true => exact .inl (by simp [performAccess_of_inReset, ht, hr])
    | false =>
      cases hs : a.supported s.base with
      | false => exact .inl (by simp [performAccess_of_not_supported, ht, hr, hs])
      | true =>
        obtain ⟨own, addr, bytes, kind⟩ := a
        cases kind with
        | read => exact .inr ⟨_, performAccess_read ht hr hs rfl, performAccess_read ht hr hs rfl⟩
        | write v => exact .inl ((performAccess_write ht hr hs rfl).trans (performAccess_write ht hr hs rfl).symm)

/-- Settles O48: once the hosts of replies are erased, the replies of two reads of one register are equal. -/
theorem hostsAreIndistinguishable : Obligations.HostsAreIndistinguishable := by
  intro s a host rest
  simp only [step_setInputs_cons, performInput]
  obtain h | ⟨v, hown, hother⟩ := performAccess_withHost a host (s.setInputs rest)
  · rw [h]; exact ⟨rfl, rfl⟩
  · rw [hown, hother]; exact ⟨rfl, rfl⟩

/-- Settles O46: such an access reaches the window, and is not of the defined form. -/
theorem unsupportedAccessRefused : Obligations.UnsupportedAccessRefused := by
  intro s a rest hr hlow hhigh hbytes hform
  have ht : a.touches s.base = true := (touches_iff _ _).2 ⟨hhigh, by omega⟩
  have hs : a.supported s.base = false := by
    rw [Bool.eq_false_iff, Ne, supported_iff]
    omega
  exact performAccess_of_not_supported (s := s.setInputs rest) ht hr hs

/-- Settles O47: such an access does not reach the window. -/
theorem outsideWindowIgnored : Obligations.OutsideWindowIgnored := by
  intro s a rest hout
  have ht : a.touches s.base = false := by
    rw [Bool.eq_false_iff, Ne, touches_iff]
    omega
  exact performAccess_of_not_touches (s := s.setInputs rest) ht

/-! ## A 32-bit access of one register as the next step -/

theorem step_wordWrite {s : State} (hr : s.inReset = false) {off : Nat} (hoff : off < 32) (h4 : off % 4 = 0) (host : Nat)
    (v : Word) (rest : List Input) :
    step (s.setInputs (s.wordWrite host off v :: rest)) = writeReg off v (s.setInputs rest) :=
  performInput_wordWrite (s := s.setInputs rest) hr hoff h4

theorem step_wordRead {s : State} (hr : s.inReset = false) {off : Nat} (hoff : off < 32) (h4 : off % 4 = 0) (host : Nat)
    (rest : List Input) :
    step (s.setInputs (s.wordRead host off :: rest)) = .next ((s.setInputs rest).reply host (s.readReg off)) :=
  performInput_wordRead (s := s.setInputs rest) hr hoff h4

/-! ## Reads -/

/-- Settles O41: each offset is aligned, and `readReg` has the value listed for it. -/
theorem windowReads : Obligations.WindowReads := by
  intro s host off v rest hr hmem
  have hread : off < 32 ∧ off % 4 = 0 ∧ s.readReg off = v := by
    simp only [List.mem_cons, Prod.mk.injEq, List.not_mem_nil, or_false] at hmem
    obtain ⟨rfl, rfl⟩ | ⟨rfl, rfl⟩ | ⟨rfl, rfl⟩ | ⟨rfl, rfl⟩ | ⟨rfl, rfl⟩ | ⟨rfl, rfl⟩ | ⟨rfl, rfl⟩ | ⟨rfl, rfl⟩ := hmem <;>
      exact ⟨by decide, by decide, rfl⟩
  obtain ⟨hoff, h4, rfl⟩ := hread
  exact step_wordRead hr hoff h4 host rest

/-- Settles O42: a register does not see the reply that the first read left. -/
theorem readsAreIdempotent : Obligations.ReadsAreIdempotent := by
  intro s host host' off rest hr hoff h4
  refine ⟨s.readReg off, ?_⟩
  have hsecond : step ((s.setInputs (s.wordRead host' off :: rest)).reply host (s.readReg off)) =
      .next (((s.reply host (s.readReg off)).setInputs rest).reply host' (s.readReg off)) :=
    step_wordRead (s := s.reply host (s.readReg off)) hr hoff h4 host' rest
  rw [run_succ (step_wordRead hr hoff h4 host _), run_succ hsecond]
  rfl

/-! ## The BUSY gate (R60) -/

/-- Every write to CMD goes through the gate, whatever the word. -/
theorem writeCmd_gated (w : Word) : ∃ k, ∀ s, writeCmd w s = gateWrite s k := by
  cases h : decodeWord w with
  | instr i => exact ⟨_, fun s => by simpa [writeCmd, h] using exec_eq_gate i s⟩
  | reserved why => exact ⟨fun s => .next (s.raise .errCmd), fun s => by simp [writeCmd, h, execReserved]⟩

/-- The writes that the gate stands before are those to CMD, CONFIG and DIN. -/
theorem writeReg_gated {off : Nat} (hoff : off ∈ [0x00, 0x08, 0x0C]) (v : Word) :
    ∃ k, ∀ s, writeReg off v s = gateWrite s k := by
  simp only [List.mem_cons, List.not_mem_nil, or_false] at hoff
  obtain rfl | rfl | rfl := hoff
  · exact writeCmd_gated v
  · exact ⟨_, writeReg_config v⟩
  · exact ⟨_, writeReg_din v⟩

/-- Settles O34, by the gate's two cases outside reset. -/
theorem busyDropsWrites : Obligations.BusyDropsWrites := by
  intro s host v rest hr
  refine ⟨fun hb off hmem => ?_, fun hb => ⟨?_, ?_, ?_⟩⟩
  · have haligned : off < 32 ∧ off % 4 = 0 := by
      revert off
      decide
    obtain ⟨k, hk⟩ := writeReg_gated hmem v
    rw [step_wordWrite hr haligned.1 haligned.2, hk]
    exact gateWrite_of_busy (s := s.setInputs rest) hr hb k
  · exact step_wordWrite hr (by decide) (by decide) host v rest
  · rw [step_wordWrite hr (by decide) (by decide), writeReg_config]
    exact gateWrite_of_ready (s := s.setInputs rest) ⟨hr, hb⟩ _
  · rw [step_wordWrite hr (by decide) (by decide), writeReg_din]
    exact gateWrite_of_ready (s := s.setInputs rest) ⟨hr, hb⟩ _

/-! ## A CMD write (R57, R170) -/

/-- A CMD write presents its word as a command; during reset both are refused alike (R233). -/
theorem step_wordWrite_cmd (s : State) (host : Nat) (w : Word) (rest : List Input) :
    step (s.setInputs (s.wordWrite host 0x00 w :: rest)) = writeCmd w (s.setInputs rest) := by
  cases hr : s.inReset with
  | false => exact step_wordWrite hr (by decide) (by decide) host w rest
  | true =>
    obtain ⟨k, hk⟩ := writeCmd_gated w
    rw [hk, gateWrite_of_inReset (s := s.setInputs rest) hr]
    exact performAccess_of_inReset (s := s.setInputs rest) (wordAccess_ok (by decide) (by decide)).1 hr

theorem writeCmd_of_instr {w : Word} {i : Instr} (h : decodeWord w = .instr i) (s : State) : writeCmd w s = exec i s := by
  simp [writeCmd, h]

theorem decodeWord_encode (i : Instr) : decodeWord (encode i) = .instr i := by
  cases i <;> rfl

/-- An instruction's word stands unchanged in the 32 bits of a table word. -/
theorem tableWord_encode (i : Instr) : tableWord 32 (encode i).toNat = encode i := by
  cases i <;> rfl

/-- Settles O35: a CMD write presents its word, and the word decodes to the instruction. -/
theorem stepRunsDecodedInstruction : Obligations.StepRunsDecodedInstruction := by
  refine ⟨fun s host w i rest hw => ?_, fun s i => ?_⟩
  · rw [step_wordWrite_cmd, writeCmd_of_instr hw]
  · rw [State.withFetchWord, tableWord_encode, step_wordWrite_cmd, writeCmd_of_instr (decodeWord_encode i),
      State.setInputs_self]

/-- Acceptance sets bit 0 of STATUS and leaves the rest (R171). -/
theorem statusWord_accept (s : State) (o : Operation) : (s.accept o).statusWord = s.statusWord ||| 1 := by
  refine BitVec.eq_of_getLsbD_eq fun i hi => ?_
  simp only [BitVec.getLsbD_or, BitVec.ofNat_eq_ofNat, BitVec.getLsbD_one, statusWord_getLsbD]
  grind [State.accept]

/-- Settles O37: STATUS shows BUSY, and the other registers do not see the acceptance. -/
theorem pendingShowsOldResults : Obligations.PendingShowsOldResults := by
  intro i s hs hi
  obtain ⟨o, ho⟩ := exists_operationOf hi
  exact ⟨s.accept o, exec_of_ready ho hs, statusWord_accept s o, readReg_accept s o (by decide),
    readReg_accept s o (by decide), readReg_accept s o (by decide)⟩

/-! ## STATUS writes and reserved places (R58, R59) -/

/-- Settles O44: a STATUS write clears what it selects, with no gate before it. -/
theorem statusWriteOneToClear : Obligations.StatusWriteOneToClear := by
  intro s host v rest hr
  have hclear (selected sticky : Bool) : (sticky && !selected) = if selected then false else sticky := by
    cases selected <;> simp
  rw [step_wordWrite hr (by decide) (by decide), writeReg_status]
  simp [State.clearSelected, State.setInputs, Event.code, hclear]

/-- The reserved bits of STATUS, 7 and 31:11, read 0 (R27, R59). -/
theorem statusWord_reserved (s : State) : s.statusWord &&& 0xFFFFF880 = 0 := by
  have hmask : ∀ i < 32, (0xFFFFF880 : Word).getLsbD i = true → i = 7 ∨ 11 ≤ i := by decide
  refine BitVec.eq_of_getLsbD_eq fun i hi => ?_
  simp only [BitVec.getLsbD_and, statusWord_getLsbD]
  grind

/-- The reserved bits of CONFIG, 31:1, read 0 (R23, R59). -/
theorem configWord_reserved (s : State) : s.configWord &&& 0xFFFFFFFE = 0 := by
  unfold State.configWord
  cases s.strict <;> decide

/-- STATUS bits 8, 9 and 10 are all that a write to it uses, and they are not reserved. -/
theorem clearSelected_defined (s : State) (v : Word) : s.clearSelected (v &&& 0x77F) = s.clearSelected v := by
  simp [State.clearSelected, Event.code]

/-- CONFIG bit 0 is all that a write to it uses. -/
theorem writeConfig_defined (s : State) (v : Word) : s.writeConfig (v &&& 1) = s.writeConfig v := by
  simp [State.writeConfig]

/-- Settles O45: reads and writes of the reserved offsets, then reads and writes of the reserved bits. -/
theorem reservedPlaces : Obligations.ReservedPlaces := by
  intro s host v rest hr
  refine ⟨fun off hmem => ?_, fun off hmem => ?_, statusWord_reserved s, configWord_reserved s, ?_, ?_⟩
  · refine windowReads s host off 0 rest hr ?_
    simp only [List.mem_cons, List.not_mem_nil, or_false] at hmem
    obtain rfl | rfl | rfl := hmem <;> simp
  · have hplace : off < 32 ∧ off % 4 = 0 ∧ off ∉ [0x00, 0x04, 0x08, 0x0C] := by
      revert off
      decide
    obtain ⟨hoff, h4, hignored⟩ := hplace
    rw [step_wordWrite hr hoff h4, writeReg_ignored hignored]
    rfl
  · simp only [step_wordWrite hr (show 0x04 < 32 by decide) (by decide), writeReg_status, clearSelected_defined]
  · simp only [step_wordWrite hr (show 0x08 < 32 by decide) (by decide), writeReg_config, writeConfig_defined]

end Sys2Proof.Machine
end

section
/-! Command words (30_encoding.md R80 to R89): the decoder against the encoder, and the words it rejects. -/

namespace Sys2Proof

/-! ## Fields and words (R80) -/

/-- The fields of a word make the word again. -/
theorem Cmd32.toWord_ofWord (w : Word) : (Cmd32.ofWord w).toWord = w := by
  simp only [Cmd32.toWord, Cmd32.ofWord]
  ext i hi
  grind

theorem Instr.encoding (i : Instr) : Laws.Encoding.Statement i :=
  match i with
  | .nop => Laws.Encoding.nop
  | .enc1 => Laws.Encoding.enc1
  | .enc2 => Laws.Encoding.enc2
  | .enc3 => Laws.Encoding.enc3
  | .dec => Laws.Encoding.dec
  | .decLast => Laws.Encoding.decLast

/-! ## The decoder of each OP: the fields of the instruction it answers, and when it rejects -/

/-- A 2-bit CNT that is none of 0, 1 and 2 is 3. -/
theorem cnt_eq_three {c : BitVec 2} (h0 : c ≠ 0) (h1 : c ≠ 1) (h2 : c ≠ 2) : c = 3 := by
  revert c
  decide

/-- A 1-bit LAST that is not 0 is 1. -/
theorem last_eq_one {l : BitVec 1} (h : l ≠ 0) : l = 1 := by
  revert l
  decide

theorem fields_of_decodeNop {c : Cmd32} {i : Instr} (h : decodeNop c = .instr i) :
    i.fields = { c with rsv := 0, op := 0 } := by
  unfold decodeNop at h
  split_ifs at h with hcnt hlast
  cases h
  simp_all [Instr.fields]

theorem fields_of_decodeEnc {c : Cmd32} {i : Instr} (h : decodeEnc c = .instr i) :
    i.fields = { c with rsv := 0, op := 1 } := by
  unfold decodeEnc at h
  split_ifs at h with hlast h0 h1 h2 <;> cases h
  · simp_all [Instr.fields]
  · simp_all [Instr.fields]
  · have h3 := cnt_eq_three h0 h1 h2
    simp_all [Instr.fields]

theorem fields_of_decodeDec {c : Cmd32} {i : Instr} (h : decodeDec c = .instr i) :
    i.fields = { c with rsv := 0, op := 2 } := by
  unfold decodeDec at h
  split_ifs at h with hcnt hlast <;> cases h
  · simp_all [Instr.fields]
  · have h1 := last_eq_one hlast
    simp_all [Instr.fields]

theorem decodeNop_reserved_iff (c : Cmd32) :
    (∃ why, decodeNop c = .reserved why) ↔ c.cnt ≠ 0 ∨ c.last ≠ 0 := by
  unfold decodeNop
  split_ifs <;> simp_all

theorem decodeEnc_reserved_iff (c : Cmd32) :
    (∃ why, decodeEnc c = .reserved why) ↔ c.cnt = 0 ∨ c.last ≠ 0 := by
  unfold decodeEnc
  split_ifs <;> simp_all

theorem decodeDec_reserved_iff (c : Cmd32) : (∃ why, decodeDec c = .reserved why) ↔ c.cnt ≠ 0 := by
  unfold decodeDec
  split_ifs <;> simp_all

/-- The classes of R89, on the fields. -/
theorem decodeFields_reserved_iff (c : Cmd32) :
    (∃ why, decodeFields c = .reserved why) ↔
      c.rsv ≠ 0 ∨ 3 ≤ c.op.toNat ∨ (c.op = 1 ∧ c.cnt = 0) ∨ (c.op = 1 ∧ c.last ≠ 0) ∨
        ((c.op = 2 ∨ c.op = 0) ∧ c.cnt ≠ 0) ∨ (c.op = 0 ∧ c.last ≠ 0) := by
  have hop : 3 ≤ c.op.toNat ↔ c.op ≠ 0 ∧ c.op ≠ 1 ∧ c.op ≠ 2 := by
    generalize c.op = op
    revert op
    decide
  rw [hop]
  unfold decodeFields
  split_ifs with hrsv h0 h1 h2
  · exact iff_of_true ⟨_, rfl⟩ (.inl hrsv)
  · simp_all [decodeNop_reserved_iff]
  · simp_all [decodeEnc_reserved_iff]
  · simp_all [decodeDec_reserved_iff]
  · exact iff_of_true ⟨_, rfl⟩ (.inr (.inl ⟨h0, h1, h2⟩))

/-- Only the fields of an instruction decode to it. -/
theorem fields_of_decodeFields {c : Cmd32} {i : Instr} (h : decodeFields c = .instr i) : i.fields = c := by
  simp only [decodeFields, ne_eq, ite_not] at h
  split_ifs at h with hrsv h0 h1 h2
  · rw [fields_of_decodeNop h, ← hrsv, ← h0]
  · rw [fields_of_decodeEnc h, ← hrsv, ← h1]
  · rw [fields_of_decodeDec h, ← hrsv, ← h2]

/-! ## The decoder on words (R83, R89) -/

theorem decodeWord_eq_instr {w : Word} {i : Instr} (h : decodeWord w = .instr i) : w = encode i := by
  obtain ⟨-, -, hword⟩ := i.encoding
  calc w = (Cmd32.ofWord w).toWord := (Cmd32.toWord_ofWord w).symm
    _ = i.fields.toWord := by rw [fields_of_decodeFields h]
    _ = encode i := hword

/-- Settles O1: a word is the fields that its instruction has, put together. -/
theorem decodeEncodeAgree : Obligations.DecodeEncodeAgree :=
  fun _ i => ⟨decodeWord_eq_instr, fun h => h ▸ Machine.decodeWord_encode i⟩

theorem decodeWord_reserved_iff (w : Word) : (∃ why, decodeWord w = .reserved why) ↔ ∀ i, w ≠ encode i := by
  simp only [Ne, ← decodeEncodeAgree w]
  cases decodeWord w <;> simp

/-- The column `word` of R82's table lists the words of the six instructions. -/
theorem mem_commandWords_iff (w : Word) :
    w ∈ [0x00000000, 0x00000011, 0x00000021, 0x00000031, 0x00000002, 0x00000042] ↔ ∃ i, w = encode i := by
  constructor
  · intro h
    simp only [List.mem_cons, List.not_mem_nil, or_false] at h
    obtain h | h | h | h | h | h := h
    exacts [⟨.nop, h⟩, ⟨.enc1, h⟩, ⟨.enc2, h⟩, ⟨.enc3, h⟩, ⟨.dec, h⟩, ⟨.decLast, h⟩]
  · rintro ⟨i, rfl⟩
    cases i <;> simp [encode]

/-- Settles O2: O1 for each instruction, and a word that is none of the six is reserved. -/
theorem exactlySixCommandWords : Obligations.ExactlySixCommandWords := by
  have hreserved (w : Word) : (∃ why, decodeWord w = .reserved why) ↔
      w ∉ [0x00000000, 0x00000011, 0x00000021, 0x00000031, 0x00000002, 0x00000042] := by
    rw [decodeWord_reserved_iff, mem_commandWords_iff, not_exists]
  refine ⟨fun w => ?_, (hreserved _).2 (by decide)⟩
  have hagree := decodeEncodeAgree w
  exact ⟨hagree .nop, hagree .enc1, hagree .enc2, hagree .enc3, hagree .dec, hagree .decLast, hreserved w⟩

/-- LAST is bit 6 of the word (R80). -/
theorem ofWord_last_ne_zero_iff (w : Word) : (Cmd32.ofWord w).last ≠ 0 ↔ w.getLsbD 6 = true := by
  have hbit : w.getLsbD 6 = (Cmd32.ofWord w).last.getLsbD 0 := by simp [Cmd32.ofWord]
  rw [hbit]
  generalize (Cmd32.ofWord w).last = l
  revert l
  decide

/-- Settles O4: the classes on the word's fields. -/
theorem reservedClassesRejected : Obligations.ReservedClassesRejected := by
  intro w
  rw [← ofWord_last_ne_zero_iff]
  exact (decodeFields_reserved_iff (Cmd32.ofWord w)).symm

/-- Settles O3: each written word is that of its instruction, and the last is none. -/
theorem decodeOfWrittenWords : Obligations.DecodeOfWrittenWords := by
  have hword (i : Instr) : decodeTableWord 32 (encode i).toNat = some i := by
    simp [decodeTableWord, Machine.tableWord_encode, Machine.decodeWord_encode, Decoded.instr?, Nat.mod_lt]
  exact ⟨hword .nop, hword .enc1, hword .enc2, hword .enc3, hword .dec, hword .decLast, by decide⟩

end Sys2Proof
end

section
/-! A decoded quadruple encoded again (30_encoding.md R88, 42_decoder.md R161): each step of the decoder's datapath is undone by a
step of the encoder's. -/

namespace Sys2Proof.Machine

/-! ## The tables -/

/-- DECTAB gives the index of an alphabet character (R105). -/
@[simp] theorem dectab_alphabet (i : Sextet) : dectab (alphabet i) = i.setWidth 7 := by
  revert i
  decide

/-- An index is no sentinel: bit 6 of its entry is 0 (R106). -/
@[simp] theorem sentinel_index (i : Sextet) : sentinel (i.setWidth 7) = false := by
  simp [sentinel]

/-- The characters of four indices (R101). -/
def Sextets.chars (i : Sextets) : Chars4 := ⟨alphabet i.i0, alphabet i.i1, alphabet i.i2, alphabet i.i3⟩

/-- The entries of DECTAB that hold four indices (R105). -/
def Sextets.entries (i : Sextets) : TabVals := ⟨i.i0.setWidth 7, i.i1.setWidth 7, i.i2.setWidth 7, i.i3.setWidth 7⟩

@[simp] theorem lookup4_chars (i : Sextets) : lookup4 i.chars = i.entries := by
  simp [lookup4, Sextets.chars, Sextets.entries]

/-- No entry of an index makes a group malformed, wherever padding is allowed (R150). -/
@[simp] theorem malformed_entries (i : Sextets) (p3 p4 : Bool) : malformed i.entries p3 p4 = false := by
  simp [malformed, Sextets.entries]

/-! ## The regroupers -/

/-- The 3-to-4 regrouper undoes the 4-to-3 regrouper on the entries of indices: each bit of an index is one bit of one of the three
bytes (R120, R141). -/
@[simp] theorem regroup3_regroup4 (i : Sextets) : regroup3 (regroup4 i.entries) = i := by
  obtain ⟨i0, i1, i2, i3⟩ := i
  simp only [regroup3, regroup4, trunc8, widen, Sextets.entries, Sextets.mk.injEq]
  refine ⟨?_, ?_, ?_, ?_⟩ <;> ext j hj <;> interval_cases j <;> simp

/-- enc.3 reads its bytes where a decoder result holds them (R88). -/
@[simp] theorem encLanes_three_packBytes (b : Bytes3) : encLanes .three (packBytes b) = b := by
  have h := decLanes_packBytes b
  simp only [decLanes, Chars4.mk.injEq] at h
  obtain ⟨-, h0, h1, h2⟩ := h
  simp [encLanes, EncCount.toNat, h0, h1, h2]

/-! ## The commands -/

/-- dec on four alphabet characters, in either mode (R143, R151). -/
theorem resultDec_chars (i : Sextets) (strict : Bool) :
    resultDec (packChars i.chars) strict = ⟨packBytes (regroup4 i.entries), 3, 0, false, false⟩ := by
  simp [resultDec, decResult, padThird, padFourth]

/-- enc.3 on the bytes of four indices gives their characters (R122). -/
theorem dout_resultEnc3_regroup4 (i : Sextets) :
    (resultEnc3 (packBytes (regroup4 i.entries))).dout = packChars i.chars := by
  simp [resultEnc3, encResult, encChars, EncCount.toNat, Sextets.chars]

/-- Settles O24: dec, then enc.3; and the example by evaluation. -/
theorem quadrupleRoundTrip : Obligations.QuadrupleRoundTrip := by
  refine ⟨?_, by decide +kernel⟩
  intro i0 i1 i2 i3 strict q
  have hq : q = packChars (Sextets.chars ⟨i0, i1, i2, i3⟩) := rfl
  rw [hq, resultDec_chars]
  exact ⟨rfl, dout_resultEnc3_regroup4 _⟩

end Sys2Proof.Machine
end

section
/-! One group of host assembly as a run (30_encoding.md R92, 70_reset_and_hazards.md R244): each of its lines as so many steps,
then the lines together. -/

namespace Sys2Proof.Machine

/-! ## Each line as steps of a run -/

/-- A DIN write of a ready block. -/
theorem run_writeDin {s : State} (hs : s.Ready) (n host : Nat) (din : Word) (rest : List Input) :
    run (n + 1) (s.setInputs (s.wordWrite host offDin din :: rest)) = run n ((s.writeDin din).setInputs rest) := by
  have hstep : step (s.setInputs (s.wordWrite host offDin din :: rest)) = .next ((s.writeDin din).setInputs rest) := by
    rw [step_wordWrite hs.1 (by decide) (by decide), writeReg_din]
    exact gateWrite_of_ready (s := s.setInputs rest) hs _
  exact run_succ hstep n

/-- A CMD write of a ready block, of any command but nop. -/
theorem run_command {s : State} (hs : s.Ready) {i : Instr} {o : Operation} (ho : operationOf i = some o) (n host : Nat)
    (rest : List Input) :
    run (n + 1) (s.setInputs (s.wordWrite host offCmd (encode i) :: rest)) = run n ((s.accept o).setInputs rest) := by
  have hstep : step (s.setInputs (s.wordWrite host offCmd (encode i) :: rest)) = .next ((s.accept o).setInputs rest) := by
    rw [step_wordWrite_cmd, writeCmd_of_instr (decodeWord_encode i)]
    exact exec_of_ready (s := s.setInputs rest) ho hs
  exact run_succ hstep n

theorem run_read {s : State} (hr : s.inReset = false) {off : Nat} (hoff : off < 32) (h4 : off % 4 = 0) (n host : Nat)
    (rest : List Input) :
    run (n + 1) (s.setInputs (s.wordRead host off :: rest)) = run n ((s.reply host (s.readReg off)).setInputs rest) :=
  run_succ (step_wordRead hr hoff h4 host rest) n

/-- The block's turn with a command pending. -/
theorem run_blockTurn {s : State} {p : PendRec} (hp : s.pend = some p) (n : Nat) (rest : List Input) :
    run (n + 1) (s.setInputs (.blockTurn :: rest)) = run n ((s.finish p.result).setInputs rest) :=
  run_succ (by rw [step_setInputs_cons, performInput, complete_of_some (s := s.setInputs rest) hp]; rfl) n

/-- The state after `k` reads of STATUS by `host`; none of them changes what the next returns. -/
def State.polled (k host : Nat) (s : State) : State :=
  { s with replies := List.replicate k ⟨host, s.statusWord⟩ ++ s.replies }

/-- `k` polls, with no other access between them. -/
theorem run_polls {s : State} (hr : s.inReset = false) (k n host : Nat) (rest : List Input) :
    run (k + n) (s.setInputs (List.replicate k (s.wordRead host offStatus) ++ rest)) =
      run n ((s.polled k host).setInputs rest) := by
  induction k generalizing n rest with
  | zero => rw [Nat.zero_add]; rfl
  | succ k ih =>
    have hlast : List.replicate (k + 1) (s.wordRead host offStatus) ++ rest =
        List.replicate k (s.wordRead host offStatus) ++ s.wordRead host offStatus :: rest := by
      simp [List.replicate_succ']
    calc run (k + 1 + n) (s.setInputs (List.replicate (k + 1) (s.wordRead host offStatus) ++ rest))
      _ = run (k + (n + 1)) (s.setInputs (List.replicate k (s.wordRead host offStatus) ++
            s.wordRead host offStatus :: rest)) := by rw [hlast, Nat.add_right_comm, Nat.add_assoc]
      _ = run (n + 1) ((s.polled k host).setInputs (s.wordRead host offStatus :: rest)) := ih (n + 1) _
      _ = run n (((s.polled k host).reply host s.statusWord).setInputs rest) :=
        run_read (s := s.polled k host) hr (by decide) (by decide) n host rest
      _ = run n ((s.polled (k + 1) host).setInputs rest) := rfl

/-! ## The group -/

/-- The inputs of a group's host after the completion: `late` + 1 polls, and the read of DOUT. -/
def groupEnding (s : State) (host late : Nat) : List Input :=
  List.replicate (late + 1) (s.wordRead host offStatus) ++ [s.wordRead host offDout]

/-- The inputs of a group, line by line. -/
theorem groupInputs_eq (s : State) (host : Nat) (i : Instr) (din : Word) (early late : Nat) :
    groupInputs s host i din early late =
      s.wordWrite host offDin din :: s.wordWrite host offCmd (encode i) ::
        (List.replicate early (s.wordRead host offStatus) ++ .blockTurn :: groupEnding s host late) := by
  have hops : groupOps i din (early + late) =
      ([BusOp.write offDin din, BusOp.write offCmd (encode i)] ++ List.replicate early (BusOp.read offStatus)) ++
        (List.replicate (late + 1) (BusOp.read offStatus) ++ [BusOp.read offDout]) := by
    simp [groupOps, pollOps, Nat.add_assoc, List.replicate_add]
  have hlength : ([BusOp.write offDin din, BusOp.write offCmd (encode i)] ++
      List.replicate early (BusOp.read offStatus)).length = 2 + early := by
    rw [List.length_append, List.length_replicate]
    rfl
  rw [groupInputs, hops, List.take_left' hlength, List.drop_left' hlength]
  simp [BusOp.toInput, groupEnding]

/-- The block with a group's command pending, after `early` polls. -/
def State.groupPending (o : Operation) (din : Word) (early host : Nat) (s : State) : State :=
  ((s.writeDin din).accept o).polled early host

/-- The block when the group's command has completed. -/
def State.groupCompleted (o : Operation) (din : Word) (early host : Nat) (s : State) : State :=
  (s.groupPending o din early host).finish (resultOf o din s.strict)

theorem run_groupEnding {s : State} (hr : s.inReset = false) (host late : Nat) (rest : List Input) :
    run (late + 1 + 1) (s.setInputs (groupEnding s host late ++ rest)) =
      .next (((s.polled (late + 1) host).reply host s.dout).setInputs rest) := by
  rw [groupEnding, List.append_assoc, run_polls hr]
  exact run_read (s := s.polled (late + 1) host) hr (by decide) (by decide) 0 host rest

theorem run_group {s : State} (hs : s.Ready) {i : Instr} {o : Operation} (ho : operationOf i = some o) (host : Nat) (din : Word)
    (early late : Nat) (rest : List Input) :
    run (early + late + 5) (s.setInputs (groupInputs s host i din early late ++ rest)) =
      .next ((((s.groupCompleted o din early host).polled (late + 1) host).reply host
        (resultOf o din s.strict).dout).setInputs rest) := by
  have hr : s.inReset = false := hs.1
  calc run (early + late + 5) (s.setInputs (groupInputs s host i din early late ++ rest))
    _ = run (early + (late + 1 + 1 + 1) + 1 + 1) (s.setInputs (s.wordWrite host offDin din ::
          s.wordWrite host offCmd (encode i) :: (List.replicate early (s.wordRead host offStatus) ++
            .blockTurn :: (groupEnding s host late ++ rest)))) := by
      rw [groupInputs_eq, show early + late + 5 = early + (late + 1 + 1 + 1) + 1 + 1 by omega]
      simp
    _ = run (early + (late + 1 + 1 + 1) + 1) ((s.writeDin din).setInputs (s.wordWrite host offCmd (encode i) ::
          (List.replicate early (s.wordRead host offStatus) ++ .blockTurn :: (groupEnding s host late ++ rest)))) :=
      run_writeDin hs _ host din _
    _ = run (early + (late + 1 + 1 + 1)) (((s.writeDin din).accept o).setInputs
          (List.replicate early (s.wordRead host offStatus) ++ .blockTurn :: (groupEnding s host late ++ rest))) :=
      run_command (s := s.writeDin din) hs ho _ host _
    _ = run (late + 1 + 1 + 1) ((s.groupPending o din early host).setInputs
          (.blockTurn :: (groupEnding s host late ++ rest))) :=
      run_polls (s := (s.writeDin din).accept o) hr early _ host _
    _ = run (late + 1 + 1) ((s.groupCompleted o din early host).setInputs (groupEnding s host late ++ rest)) :=
      run_blockTurn (s := s.groupPending o din early host) rfl _ _
    _ = .next ((((s.groupCompleted o din early host).polled (late + 1) host).reply host
          (resultOf o din s.strict).dout).setInputs rest) :=
      run_groupEnding (s := s.groupCompleted o din early host) hr host late rest

/-- Settles O40: the run of a group ends in the statement's state; BUSY is 0 there as in `s`. -/
theorem groupSequenceReadsResult : Obligations.GroupSequenceReadsResult := by
  intro s host i din r early late rest hs hresult busyState doneState
  obtain ⟨o, ho, rfl⟩ := Option.map_eq_some_iff.1 hresult
  have hcompleted : s.groupCompleted o din early host = { doneState with
      replies := List.replicate early ⟨host, busyState.statusWord⟩ ++ s.replies } := by
    simp only [doneState, hs.2]
    rfl
  rw [run_group hs ho, hcompleted, List.append_assoc]
  rfl

end Sys2Proof.Machine
end

section
/-! The two tables (40_lookup_tables.md R101 to R106): the DECTAB entry of a code unit says whether it is an alphabet character, and
which; and the encoder writes alphabet characters and padding only. -/

namespace Sys2Proof.Machine

/-! ## The sentinel bit (R106) -/

/-- Bit 6 is the top bit of an entry, so it marks the entries that are no 6-bit index. -/
theorem sentinel_iff (v : TabVal) : sentinel v = true ↔ 64 ≤ v.toNat := by
  have hmsb : sentinel v = v.msb := (BitVec.msb_eq_getLsbD_last v).symm
  rw [hmsb, BitVec.msb_eq_decide]
  exact decide_eq_true_iff

theorem sentinel_eq_false_iff (v : TabVal) : sentinel v = false ↔ v.toNat ≤ 63 := by
  rw [← Bool.not_eq_true, sentinel_iff]
  omega

theorem sentinel_dectab_iff (c : Byte) : sentinel (dectab c) = true ↔ dectab c = 64 ∨ dectab c = 80 := by
  constructor
  · intro h
    have hge := (sentinel_iff _).1 h
    exact (dectab_class c).resolve_left (by omega)
  · rintro (h | h) <;> rw [h] <;> rfl

/-! ## The padding character and the alphabet (R102, R105) -/

@[simp] theorem dectab_pad : dectab pad = 64 := (dectab_eq_64_iff pad).2 rfl

/-- The low 6 bits of the entry give the index back. -/
theorem alphabet_injective : Function.Injective alphabet :=
  Function.LeftInverse.injective (g := fun c => (dectab c).setWidth 6) fun i => by simp

/-- The entry of an alphabet character is an index, that of PAD is a sentinel. -/
theorem alphabet_ne_pad (i : Sextet) : alphabet i ≠ pad := by
  intro h
  have hindex : sentinel (dectab (alphabet i)) = false := by rw [dectab_alphabet, sentinel_index]
  rw [h, dectab_pad] at hindex
  cases hindex

/-- A code unit outside the alphabet that is not PAD has the entry 80: it has no index, and only PAD has 64. -/
theorem dectab_eq_80 {c : Byte} (halpha : ∀ i, alphabet i ≠ c) (hpad : c ≠ pad) : dectab c = 80 := by
  have hout : sentinel (dectab c) = true := by
    have h : ¬ inAlphabet c = true := fun h => ((inAlphabet_iff c).1 h).elim halpha
    simpa [inAlphabet] using h
  exact ((sentinel_dectab_iff c).1 hout).resolve_left fun h => hpad ((dectab_eq_64_iff c).1 h)

/-! ## The characters of an encoder result (R102) -/

/-- The characters of an encoder result are those that the padding logic chooses (R86). -/
theorem charsOf_encResult (cnt : EncCount) (din : Word) :
    charsOf (encResult cnt din).dout =
      [(encChars cnt din).c0, (encChars cnt din).c1, (encChars cnt din).c2, (encChars cnt din).c3] := by
  simp only [charsOf, encResult, decLanes_packChars]

/-- A lane that holds an alphabet character or, failing its condition, PAD. -/
theorem exists_alphabet_of_ite_ne_pad {p : Prop} [Decidable p] {i : Sextet} (h : (if p then alphabet i else pad) ≠ pad) :
    ∃ j, alphabet j = if p then alphabet i else pad := by
  by_cases hp : p
  · exact ⟨i, (if_pos hp).symm⟩
  · exact absurd (if_neg hp) h

theorem exists_alphabet_of_mem_encResult {cnt : EncCount} {din : Word} {c : Byte}
    (hc : c ∈ charsOf (encResult cnt din).dout) (hpad : c ≠ pad) : ∃ i, alphabet i = c := by
  simp only [charsOf_encResult, List.mem_cons, List.not_mem_nil, or_false] at hc
  obtain rfl | rfl | rfl | rfl := hc
  · exact ⟨_, rfl⟩
  · exact ⟨_, rfl⟩
  · exact exists_alphabet_of_ite_ne_pad hpad
  · exact exists_alphabet_of_ite_ne_pad hpad

/-! ## The statements -/

/-- Settles O5: DECTAB separates the characters, and each lane of an encoder result is chosen from the alphabet and PAD. -/
theorem alphabetClosure : Obligations.AlphabetClosure :=
  ⟨fun _ _ hij => alphabet_injective hij, alphabet_ne_pad, fun _ _ _ hc hpad => exists_alphabet_of_mem_encResult hc hpad⟩

/-- Settles O6: one lemma for each of the three outcomes. -/
theorem dectabDefinition : Obligations.DectabDefinition := by
  intro c
  refine ⟨?_, (dectab_eq_64_iff c).2, dectab_eq_80⟩
  rintro i rfl
  rw [dectab_alphabet, BitVec.toNat_setWidth_of_le (by decide)]

/-- Settles O7: the entries of an index and of PAD; they differ, as `alphabet_ne_pad` and the uniqueness of PAD's entry say. -/
theorem dectabInvertsAlphabet : Obligations.DectabInvertsAlphabet := by
  refine ⟨dectab_alphabet, dectab_pad, by rw [dectab_pad]; decide, ?_⟩
  intro i h
  exact alphabet_ne_pad i ((dectab_eq_64_iff _).1 (h.symm.trans dectab_pad))

/-- Settles O8: the classes of an entry, and its bit 6 as the sentinel bit. -/
theorem dectabClasses : Obligations.DectabClasses :=
  fun c => ⟨dectab_class c, sentinel_dectab_iff c, (sentinel_eq_false_iff (dectab c)).symm⟩

/-- Settles O60: the range formulas of `alphabet`, evaluated at each of the 64 indices. -/
theorem alphabetContents : Obligations.AlphabetContents :=
  ⟨by decide, rfl⟩

end Sys2Proof.Machine
end

section
/-! The encoder's commands (41_encoder.md R120 to R124): the 3-to-4 regrouper bit by bit, the characters of each command as slices
of DIN, and a command's life from its CMD write to its completion. -/

namespace Sys2Proof.Machine

/-! ## The 3-to-4 regrouper (R120) -/

/-- The four indices are the 24 bits of the bytes, six at a time. -/
theorem regroup3_eq (b : Bytes3) : regroup3 b =
    { i0 := b.b0.extractLsb' 2 6
      i1 := b.b0.extractLsb' 0 2 ++ b.b1.extractLsb' 4 4
      i2 := b.b1.extractLsb' 0 4 ++ b.b2.extractLsb' 6 2
      i3 := b.b2.extractLsb' 0 6 } := by
  simp only [regroup3]
  congr 1 <;> ext j hj <;> interval_cases j <;> grind

/-- The high bits of a byte as a number: the shift leaves nothing above them. -/
theorem toNat_highBits {q r : Nat} (y : Byte) (hqr : q + r = 8) : (y.extractLsb' q r).toNat = y.toNat >>> q := by
  have hlt : y.toNat >>> q < 2 ^ r := by
    rw [Nat.shiftRight_eq_div_pow]
    exact Nat.div_lt_of_lt_mul (by rw [← Nat.pow_add, hqr]; exact y.isLt)
  rw [BitVec.extractLsb'_toNat, Nat.mod_eq_of_lt hlt]

/-- The low bits of a byte as a number: the mask of the source's formulas. -/
theorem toNat_lowBits (p : Nat) (x : Byte) : (x.extractLsb' 0 p).toNat = x.toNat &&& (2 ^ p - 1) := by
  rw [BitVec.extractLsb'_toNat, Nat.shiftRight_zero, Nat.and_two_pow_sub_one_eq_mod]

/-- Settles O9: the slices of `regroup3_eq`, read as natural numbers and joined again. -/
theorem regroupThreeToFour : Obligations.RegroupThreeToFour := by
  intro b
  rw [regroup3_eq]
  refine ⟨toNat_highBits _ rfl, ?_, ?_, toNat_lowBits 6 _, by grind, rfl, rfl, rfl, rfl⟩
  · exact (BitVec.toNat_append _ _).trans (congrArg₂ (· <<< 4 ||| ·) (toNat_lowBits 2 _) (toNat_highBits _ rfl))
  · exact (BitVec.toNat_append _ _).trans (congrArg₂ (· <<< 2 ||| ·) (toNat_lowBits 4 _) (toNat_highBits _ rfl))

/-! ## The indices of each command, as slices of DIN (R84, R121) -/

theorem regroup3_encLanes_three (din : Word) : regroup3 (encLanes .three din) =
    ⟨din.extractLsb' 18 6, din.extractLsb' 12 6, din.extractLsb' 6 6, din.extractLsb' 0 6⟩ := by
  simp only [regroup3_eq, encLanes, EncCount.toNat]
  congr 1 <;> grind

theorem regroup3_encLanes_two (din : Word) : regroup3 (encLanes .two din) =
    ⟨din.extractLsb' 18 6, din.extractLsb' 12 6, din.extractLsb' 8 4 ++ (0 : BitVec 2), 0⟩ := by
  simp only [regroup3_eq, encLanes, EncCount.toNat]
  congr 1 <;> grind

theorem regroup3_encLanes_one (din : Word) : regroup3 (encLanes .one din) =
    ⟨din.extractLsb' 18 6, din.extractLsb' 16 2 ++ (0 : BitVec 4), 0, 0⟩ := by
  simp only [regroup3_eq, encLanes, EncCount.toNat]
  congr 1 <;> grind

/-! ## A command's life (R122 to R124, R170 to R173) -/

/-- A busy block drops any command with ErrOvr (R60). -/
theorem exec_of_busy (i : Instr) {s : State} (hr : s.inReset = false) (hb : s.busy = true) :
    exec i s = .next { s with errOvr := true } := by
  rw [exec_eq_gate, gateWrite_of_busy hr hb]
  rfl

/-- A ready block accepts an encoder command, and its next turn writes the command's characters. -/
theorem encCommand_completes {i : Instr} {cnt : EncCount} (ho : operationOf i = some (.enc cnt)) {s : State} (hs : s.Ready) :
    ∃ t, exec i s = .next t ∧
      t = { s with busy := true, pend := some { operation := .enc cnt, din := s.din, strict := s.strict } } ∧
      ∀ rest, step (t.setInputs (.blockTurn :: rest)) = .next { s with
        dout := packChars (encChars cnt s.din), outlen := 4, npad := BitVec.ofNat 2 (3 - cnt.toNat), inv := false
        busy := false, pend := none, inputs := rest } := by
  refine ⟨s.accept (.enc cnt), exec_of_ready ho hs, rfl, fun rest => ?_⟩
  calc step ((s.accept (.enc cnt)).setInputs (.blockTurn :: rest))
    _ = .next (((s.setInputs rest).accept (.enc cnt)).complete) := rfl
    _ = .next (((s.setInputs rest).accept (.enc cnt)).finish (encResult cnt s.din)) := by
      rw [complete_accept, resultOf_enc]
      rfl
    _ = _ := by simp [State.finish, State.accept, State.setInputs, encResult]

/-- Settles O10: the life of an encoder command, with the indices of enc.3 as slices of DIN. -/
theorem enc3EncodesTriple : Obligations.Enc3EncodesTriple := by
  refine ⟨rfl, fun s hs => ?_, fun s hr hb => exec_of_busy .enc3 hr hb⟩
  simpa [encChars, regroup3_encLanes_three, packChars, EncCount.toNat] using encCommand_completes (i := .enc3) rfl hs

/-- Settles O11: the life of an encoder command, with the indices of enc.2 as slices of DIN. -/
theorem enc2EncodesTwoBytes : Obligations.Enc2EncodesTwoBytes := by
  refine ⟨rfl, fun s hs => ?_, fun s hr hb => exec_of_busy .enc2 hr hb⟩
  simpa [encChars, regroup3_encLanes_two, packChars, EncCount.toNat] using encCommand_completes (i := .enc2) rfl hs

/-- Settles O12: the life of an encoder command, with the indices of enc.1 as slices of DIN. -/
theorem enc1EncodesOneByte : Obligations.Enc1EncodesOneByte := by
  refine ⟨rfl, fun s hs => ?_, fun s hr hb => exec_of_busy .enc1 hr hb⟩
  simpa [encChars, regroup3_encLanes_one, packChars, EncCount.toNat] using encCommand_completes (i := .enc1) rfl hs

end Sys2Proof.Machine
end

section
/-! The encoder against the decoder (41_encoder.md R128, R130): dec.last gives an encoder command's bytes back, so no two operands
have one result, and no result is malformed. -/

namespace Sys2Proof.Machine

/-! ## The 4-to-3 regrouper on the indices of bytes (R120, R141) -/

/-- The 4-to-3 regrouper undoes the 3-to-4 regrouper: each bit of a byte is one bit of one of the four indices. -/
@[simp] theorem regroup4_regroup3 (b : Bytes3) : regroup4 (regroup3 b).entries = b := by
  obtain ⟨b0, b1, b2⟩ := b
  simp only [regroup3, regroup4, trunc8, widen, Sextets.entries, Bytes3.mk.injEq]
  refine ⟨?_, ?_, ?_⟩ <;> ext j hj <;> interval_cases j <;> simp

/-! ## dec.last on the three forms of a well-formed group (R144) -/

theorem resultDecLast_chars (i : Sextets) (strict : Bool) :
    resultDecLast (packChars i.chars) strict = ⟨packBytes (regroup4 i.entries), 3, 0, false, false⟩ := by
  have hpad : (i.chars.c3 == pad) = false := beq_false_of_ne (alphabet_ne_pad i.i3)
  simp [resultDecLast, decResult, padThird, padFourth, hpad]

/-- byte0 has no bit of the last two lanes. -/
@[simp] theorem regroup4_b0_entries (i : Sextets) (v3 v4 : TabVal) :
    (regroup4 ⟨i.i0.setWidth 7, i.i1.setWidth 7, v3, v4⟩).b0 = (regroup4 i.entries).b0 := rfl

/-- byte1 has no bit of the last lane. -/
@[simp] theorem regroup4_b1_entries (i : Sextets) (v4 : TabVal) :
    (regroup4 ⟨i.i0.setWidth 7, i.i1.setWidth 7, i.i2.setWidth 7, v4⟩).b1 = (regroup4 i.entries).b1 := rfl

/-- One padding character: byte0 and byte1 stand, and byte2 is not there. -/
theorem resultDecLast_onePad (i : Sextets) (strict : Bool) :
    resultDecLast (packChars { i.chars with c3 := pad }) strict =
      ⟨packBytes { regroup4 i.entries with b2 := 0 }, 2, 1, false, false⟩ := by
  simp [resultDecLast, decResult, padThird, padFourth, lookup4, malformed, Sextets.chars, alphabet_ne_pad]

/-- Two padding characters: byte0 stands, and the other bytes are not there. -/
theorem resultDecLast_twoPads (i : Sextets) (strict : Bool) :
    resultDecLast (packChars { i.chars with c2 := pad, c3 := pad }) strict =
      ⟨packBytes { regroup4 i.entries with b1 := 0, b2 := 0 }, 1, 2, false, false⟩ := by
  simp [resultDecLast, decResult, padThird, padFourth, lookup4, malformed, Sextets.chars]

/-! ## dec.last on an encoder result -/

/-- A decoder command's result that holds the first `cnt` of three bytes, from a well-formed group. -/
def decodedBytes (cnt : EncCount) (b : Bytes3) : CmdResult where
  dout   := packBytes b
  outlen := BitVec.ofNat 3 cnt.toNat
  npad   := BitVec.ofNat 2 (3 - cnt.toNat)
  inv    := false
  encErr := false

/-- dec.last gives back the bytes that the encoder command has read (R160). -/
theorem resultDecLast_encResult (cnt : EncCount) (din : Word) (strict : Bool) :
    resultDecLast (encResult cnt din).dout strict = decodedBytes cnt (encLanes cnt din) := by
  have hbytes := regroup4_regroup3 (encLanes cnt din)
  cases cnt with
  | one => exact (resultDecLast_twoPads (regroup3 (encLanes .one din)) strict).trans (by rw [hbytes]; rfl)
  | two => exact (resultDecLast_onePad (regroup3 (encLanes .two din)) strict).trans (by rw [hbytes]; rfl)
  | three => exact (resultDecLast_chars (regroup3 (encLanes .three din)) strict).trans (by rw [hbytes]; rfl)

/-- dec gives back the bytes of a complete triple (R160). -/
theorem resultDec_encResult (din : Word) (strict : Bool) :
    resultDec (encResult .three din).dout strict = decodedBytes .three (encLanes .three din) :=
  (resultDec_chars (regroup3 (encLanes .three din)) strict).trans (by rw [regroup4_regroup3]; rfl)

/-! ## Injectivity (R128) -/

theorem packBytes_injective : Function.Injective packBytes :=
  Function.LeftInverse.injective (g := encLanes .three) encLanes_three_packBytes

/-- Operands with one result have the same bytes: they are those that dec.last gives back. -/
theorem encLanes_eq_of_dout_eq {cnt : EncCount} {d e : Word} (h : (encResult cnt d).dout = (encResult cnt e).dout) :
    encLanes cnt d = encLanes cnt e := by
  have hdecoded : decodedBytes cnt (encLanes cnt d) = decodedBytes cnt (encLanes cnt e) := by
    rw [← resultDecLast_encResult cnt d false, h, resultDecLast_encResult]
  exact packBytes_injective (congrArg CmdResult.dout hdecoded)

/-- The slice of DIN that enc.3 reads is its three bytes in order (R84). -/
theorem extractLsb_eq_lanes_three (din : Word) :
    din.extractLsb' 0 24 = (encLanes .three din).b0 ++ (encLanes .three din).b1 ++ (encLanes .three din).b2 := by
  simp only [encLanes, EncCount.toNat]
  grind

/-- The slice of DIN that enc.2 reads is its two bytes in order (R84). -/
theorem extractLsb_eq_lanes_two (din : Word) :
    din.extractLsb' 8 16 = (encLanes .two din).b0 ++ (encLanes .two din).b1 := by
  simp only [encLanes, EncCount.toNat]
  grind

/-- Settles O13: the bytes read determine the slices; and every quadruple is the result on the bytes that dec makes of it. -/
theorem encoderInjective : Obligations.EncoderInjective := by
  refine ⟨fun d e h => ?_, fun i0 i1 i2 i3 => ⟨_, dout_resultEnc3_regroup4 ⟨i0, i1, i2, i3⟩⟩,
    fun d e h => ?_, fun d e h => ?_⟩
  · rw [extractLsb_eq_lanes_three, extractLsb_eq_lanes_three, encLanes_eq_of_dout_eq h]
  · rw [extractLsb_eq_lanes_two, extractLsb_eq_lanes_two, encLanes_eq_of_dout_eq h]
  · exact congrArg Bytes3.b0 (encLanes_eq_of_dout_eq h)

/-! ## Well-formed results (R130) -/

/-- The characters of an encoder result: `cnt + 1` of the alphabet, and PAD in the other lanes. -/
theorem charsOf_encResult_eq_append (cnt : EncCount) (din : Word) : ∃ body,
    charsOf (encResult cnt din).dout = body ++ List.replicate (3 - cnt.toNat) pad ∧ body.length = cnt.toNat + 1 ∧
      ∀ c ∈ body, ∃ i, alphabet i = c := by
  let i := regroup3 (encLanes cnt din)
  refine ⟨([i.i0, i.i1, i.i2, i.i3].take (cnt.toNat + 1)).map alphabet, ?_, ?_,
    fun c hc => (List.mem_map.1 hc).imp fun _ h => h.2⟩
  · rw [charsOf_encResult]
    cases cnt <;> rfl
  · cases cnt <;> rfl

/-- Settles O22: the decoder's results on an encoder result, and the padding lanes. -/
theorem encoderOutputWellFormed : Obligations.EncoderOutputWellFormed := by
  intro cnt din strict
  obtain ⟨body, hchars, hlength, hbody⟩ := charsOf_encResult_eq_append cnt din
  rw [hchars, List.drop_left' hlength, List.take_left' hlength]
  refine ⟨by rw [resultDecLast_encResult]; rfl, ?_, rfl, hbody⟩
  rintro rfl
  rw [resultDec_encResult]
  rfl

end Sys2Proof.Machine
end

section
/-! Whole messages (41_encoder.md R125, R126; 42_decoder.md R155, R160): the host's two procedures group by group, and what their
composition gives. -/

namespace Sys2Proof.Machine

/-! ## The host's encoding procedure, one group at a time (R125) -/

theorem encodeMessage_nil : encodeMessage [] = [] := rfl

theorem encodeMessage_one (b0 : Byte) :
    encodeMessage [b0] = charsOf (encResult .one (packBytes ⟨b0, 0, 0⟩)).dout := rfl

theorem encodeMessage_two (b0 b1 : Byte) :
    encodeMessage [b0, b1] = charsOf (encResult .two (packBytes ⟨b0, b1, 0⟩)).dout := rfl

theorem encodeMessage_triple (b0 b1 b2 : Byte) (rest : List Byte) :
    encodeMessage (b0 :: b1 :: b2 :: rest) =
      charsOf (encResult .three (packBytes ⟨b0, b1, b2⟩)).dout ++ encodeMessage rest := rfl

@[simp] theorem length_charsOf (w : Word) : (charsOf w).length = 4 := rfl

/-- Each group gives four characters. -/
theorem length_encodeMessage (bytes : List Byte) : (encodeMessage bytes).length = 4 * ((bytes.length + 2) / 3) := by
  induction bytes using encodeGroups.induct with
  | case1 => rfl
  | case2 b0 => simp [encodeMessage_one]
  | case3 b0 b1 => simp [encodeMessage_two]
  | case4 b0 b1 b2 rest ih =>
    simp only [encodeMessage_triple, List.length_append, length_charsOf, ih, List.length_cons]
    omega

theorem encodeMessage_ne_nil {bytes : List Byte} (h : bytes ≠ []) : encodeMessage bytes ≠ [] := by
  have hpos := List.length_pos_iff.2 h
  rw [← List.length_pos_iff, length_encodeMessage]
  omega

/-- The characters of an encoder result, its padding apart; no other character is PAD (R102, R130). -/
theorem charsOf_encResult_padding (cnt : EncCount) (din : Word) : ∃ body,
    charsOf (encResult cnt din).dout = body ++ List.replicate (3 - cnt.toNat) pad ∧ pad ∉ body := by
  obtain ⟨body, hchars, -, hbody⟩ := charsOf_encResult_eq_append cnt din
  refine ⟨body, hchars, fun hpad => ?_⟩
  obtain ⟨i, hi⟩ := hbody pad hpad
  exact alphabet_ne_pad i hi

/-- Only the last group is padded. -/
theorem encodeMessage_padding (bytes : List Byte) : ∃ body,
    encodeMessage bytes = body ++ List.replicate ((3 - bytes.length % 3) % 3) pad ∧ pad ∉ body := by
  induction bytes using encodeGroups.induct with
  | case1 => exact ⟨[], rfl, List.not_mem_nil⟩
  | case2 b0 => exact charsOf_encResult_padding .one _
  | case3 b0 b1 => exact charsOf_encResult_padding .two _
  | case4 b0 b1 b2 rest ih =>
    obtain ⟨first, hfirst, hpadFirst⟩ := charsOf_encResult_padding .three (packBytes ⟨b0, b1, b2⟩)
    obtain ⟨body, hrest, hpadRest⟩ := ih
    refine ⟨first ++ body, ?_, by simp [hpadFirst, hpadRest]⟩
    have hlength : (b0 :: b1 :: b2 :: rest).length % 3 = rest.length % 3 := Nat.add_mod_right rest.length 3
    rw [encodeMessage_triple, hfirst, hrest, hlength]
    simp [EncCount.toNat]

/-- Settles O26, by induction on the groups: each gives four characters, and only the last has padding. -/
theorem encodedLengthAndPadding : Obligations.EncodedLengthAndPadding :=
  ⟨encodeMessage_nil, fun bytes => ⟨length_encodeMessage bytes, encodeMessage_padding bytes⟩⟩

/-! ## The host's decoding procedure, one group at a time (R155) -/

@[simp] theorem packChars_decLanes (w : Word) : packChars (decLanes w) = w := by
  simp only [packChars, decLanes]
  grind

/-- A text of one group is decoded by dec.last. -/
theorem decodeResults_charsOf (strict : Bool) (w : Word) :
    decodeResults strict (charsOf w) = some [resultDecLast w strict] := by
  have hgroups : decodeGroups (charsOf w) = some [(.decLast, packChars (decLanes w))] := rfl
  rw [decodeResults, hgroups, packChars_decLanes]
  rfl

/-- The first group of a longer text is decoded by dec. -/
theorem decodeResults_charsOf_append (strict : Bool) (w : Word) {text : List Byte} (h : text ≠ []) :
    decodeResults strict (charsOf w ++ text) = (decodeResults strict text).map (resultDec w strict :: ·) := by
  obtain ⟨c, rest, rfl⟩ := List.exists_cons_of_ne_nil h
  have hgroups : decodeGroups (charsOf w ++ c :: rest) =
      (decodeGroups (c :: rest)).map ((.dec, packChars (decLanes w)) :: ·) := rfl
  rw [decodeResults, hgroups, packChars_decLanes, decodeResults, Option.map_map, Option.map_map]
  rfl

/-! ## One procedure after the other (R160) -/

/-- The bytes that the host appends are the first OUTLEN ones (R87). -/
theorem bytesOf_decodedBytes (cnt : EncCount) (b : Bytes3) :
    bytesOf (decodedBytes cnt b) = [b.b0, b.b1, b.b2].take cnt.toNat := by
  have hlanes : bytesOf (decodedBytes cnt b) =
      [(decLanes (packBytes b)).c1, (decLanes (packBytes b)).c2, (decLanes (packBytes b)).c3].take cnt.toNat := by
    cases cnt <;> rfl
  rw [hlanes, decLanes_packBytes]

/-- An encoder command reads the first `cnt` of the bytes in DIN (R84). -/
theorem encLanes_packBytes_take (cnt : EncCount) (b : Bytes3) :
    [(encLanes cnt (packBytes b)).b0, (encLanes cnt (packBytes b)).b1, (encLanes cnt (packBytes b)).b2].take cnt.toNat =
      [b.b0, b.b1, b.b2].take cnt.toNat := by
  conv_rhs => rw [← encLanes_three_packBytes b]
  cases cnt <;> rfl

/-- The results `rs` are those of the decoding procedure on `text`; they hold `bytes`, and none reports an error. -/
def DecodesCleanly (strict : Bool) (text bytes : List Byte) : Prop :=
  ∃ rs, decodeResults strict text = some rs ∧ rs.flatMap bytesOf = bytes ∧ ∀ r ∈ rs, r.inv = false ∧ r.encErr = false

theorem decodesCleanly_group (strict : Bool) (cnt : EncCount) (b : Bytes3) :
    DecodesCleanly strict (charsOf (encResult cnt (packBytes b)).dout) ([b.b0, b.b1, b.b2].take cnt.toNat) := by
  refine ⟨[decodedBytes cnt (encLanes cnt (packBytes b))], ?_, ?_, ?_⟩
  · rw [decodeResults_charsOf, resultDecLast_encResult]
  · rw [List.flatMap_singleton, bytesOf_decodedBytes, encLanes_packBytes_take]
  · simp [decodedBytes]

theorem DecodesCleanly.cons_triple {strict : Bool} {text bytes : List Byte} (h : DecodesCleanly strict text bytes)
    (htext : text ≠ []) (b0 b1 b2 : Byte) :
    DecodesCleanly strict (charsOf (encResult .three (packBytes ⟨b0, b1, b2⟩)).dout ++ text) (b0 :: b1 :: b2 :: bytes) := by
  obtain ⟨rs, hrs, hbytes, hclean⟩ := h
  refine ⟨decodedBytes .three (encLanes .three (packBytes ⟨b0, b1, b2⟩)) :: rs, ?_, ?_, ?_⟩
  · rw [decodeResults_charsOf_append strict _ htext, hrs, resultDec_encResult]
    rfl
  · rw [List.flatMap_cons, bytesOf_decodedBytes, encLanes_packBytes_take, hbytes]
    rfl
  · exact List.forall_mem_cons.2 ⟨⟨rfl, rfl⟩, hclean⟩

theorem decodesCleanly_encodeMessage (strict : Bool) (bytes : List Byte) :
    DecodesCleanly strict (encodeMessage bytes) bytes := by
  induction bytes using encodeGroups.induct with
  | case1 => exact ⟨[], rfl, rfl, by simp⟩
  | case2 b0 => exact decodesCleanly_group strict .one ⟨b0, 0, 0⟩
  | case3 b0 b1 => exact decodesCleanly_group strict .two ⟨b0, b1, 0⟩
  | case4 b0 b1 b2 rest ih =>
    by_cases hrest : rest = []
    · subst hrest
      exact decodesCleanly_group strict .three ⟨b0, b1, b2⟩
    · exact ih.cons_triple (encodeMessage_ne_nil hrest) b0 b1 b2

/-- Settles O25, by induction on the groups: dec.last gives the last one back, and dec each one before it. -/
theorem messageRoundTrip : Obligations.MessageRoundTrip := by
  intro bytes strict
  obtain ⟨rs, hrs, hbytes, hclean⟩ := decodesCleanly_encodeMessage strict bytes
  refine ⟨?_, rs, hrs, hclean⟩
  rw [decodeMessage, hrs, Option.map_some, hbytes]

end Sys2Proof.Machine
end

section
/-! The decoder's commands (42_decoder.md R141 to R153): the 4-to-3 regrouper bit by bit, a result as one record with the malformed
group as a condition in its fields, and a command's life from its CMD write to its completion. -/

namespace Sys2Proof.Machine

/-! ## The 4-to-3 regrouper (R141) -/

/-- The three bytes are the low six bits of the four table values, in order. -/
theorem regroup4_eq (v : TabVals) : regroup4 v =
    { b0 := v.v1.extractLsb' 0 6 ++ v.v2.extractLsb' 4 2
      b1 := v.v2.extractLsb' 0 4 ++ v.v3.extractLsb' 2 4
      b2 := v.v3.extractLsb' 0 2 ++ v.v4.extractLsb' 0 6 } := by
  simp only [regroup4, trunc8, widen]
  congr 1 <;> ext j hj <;> interval_cases j <;> grind

@[simp] theorem toNat_widen (v : TabVal) : (widen v).toNat = v.toNat := BitVec.toNat_setWidth_of_le (by decide)

/-- A byte of the regrouper as a number: what a shift in 16 bits loses is cut by `trunc8` anyway. -/
theorem toNat_trunc8_shiftLeft_or (x y : BitVec 16) (n : Nat) :
    (trunc8 (x <<< n ||| y)).toNat = (x.toNat <<< n ||| y.toNat) % 256 := by
  have hcut : x.toNat <<< n % 2 ^ 16 % 2 ^ 8 = x.toNat <<< n % 2 ^ 8 := Nat.mod_mod_of_dvd _ (by decide)
  calc (trunc8 (x <<< n ||| y)).toNat
    _ = (x.toNat <<< n % 2 ^ 16 ||| y.toNat) % 2 ^ 8 := by
      rw [trunc8, BitVec.toNat_setWidth, BitVec.toNat_or, BitVec.toNat_shiftLeft]
    _ = (x.toNat <<< n ||| y.toNat) % 2 ^ 8 := by rw [Nat.or_mod_two_pow, hcut, ← Nat.or_mod_two_pow]

/-- Settles O14: each formula read as a natural number, and the slices of `regroup4_eq`. -/
theorem regroupFourToThree : Obligations.RegroupFourToThree := by
  refine ⟨fun v => (BitVec.ushiftRight_and_distrib v 0x30 4).symm, fun v => ⟨?_, ?_, ?_,
    congrArg Bytes3.b0 (regroup4_eq v), congrArg Bytes3.b1 (regroup4_eq v), congrArg Bytes3.b2 (regroup4_eq v)⟩⟩
  all_goals simp [regroup4, toNat_trunc8_shiftLeft_or]

/-! ## The result of a decoder command -/

/-- `inv` of the group in DIN: it has no mode in it (R150). -/
def groupMalformed (last : Bool) (din : Word) : Bool :=
  malformed (lookup4 (decLanes din)) (padThird last (decLanes din)) (padFourth last (decLanes din))

/-- The result in one record: the strict rejection is a condition in its fields, and so is the padding (R142, R151, R152). -/
theorem decResult_eq (last : Bool) (din : Word) (strict : Bool) :
    let b := regroup4 (lookup4 (decLanes din))
    let p3 := padThird last (decLanes din)
    let p4 := padFourth last (decLanes din)
    let rejected := strict && groupMalformed last din
    decResult last din strict =
      { dout := if rejected then 0 else if p3 then packBytes ⟨b.b0, 0, 0⟩ else if p4 then packBytes ⟨b.b0, b.b1, 0⟩
          else packBytes b
        outlen := if rejected then 0 else if p3 then 1 else if p4 then 2 else 3
        npad := if rejected then 0 else if p3 then 2 else if p4 then 1 else 0
        inv := groupMalformed last din
        encErr := rejected } := by
  intro b p3 p4 rejected
  have hcases : decResult last din strict =
      if rejected then strictRejection
      else if p3 then ⟨packBytes ⟨b.b0, 0, 0⟩, 1, 2, groupMalformed last din, false⟩
      else if p4 then ⟨packBytes ⟨b.b0, b.b1, 0⟩, 2, 1, groupMalformed last din, false⟩
      else ⟨packBytes b, 3, 0, groupMalformed last din, false⟩ := rfl
  rw [hcases]
  cases hrej : rejected with
  | true =>
    obtain ⟨-, hinv⟩ := Bool.and_eq_true_iff.1 hrej
    rw [hinv]
    rfl
  | false => cases p3 <;> cases p4 <;> rfl

/-- INV does not depend on the mode. -/
@[simp] theorem decResult_inv (last : Bool) (din : Word) (strict : Bool) :
    (decResult last din strict).inv = groupMalformed last din := by
  rw [decResult_eq]

/-- Only strict mode reports a malformed group. -/
@[simp] theorem decResult_encErr (last : Bool) (din : Word) (strict : Bool) :
    (decResult last din strict).encErr = (strict && groupMalformed last din) := by
  rw [decResult_eq]

/-- In strict mode a malformed group is rejected. -/
theorem decResult_strict_of_malformed {last : Bool} {din : Word} (h : groupMalformed last din = true) :
    decResult last din true = strictRejection := by
  rw [decResult_eq, h]
  rfl

/-- On a group that is not malformed the mode makes no difference. -/
theorem decResult_strict_of_not_malformed {last : Bool} {din : Word} (h : groupMalformed last din = false) :
    decResult last din true = decResult last din false := by
  rw [decResult_eq, decResult_eq, h]
  rfl

/-- Of LAST a result depends on no more than the padding it allows in lane 4 (R142). -/
theorem decResult_eq_of_padFourth_eq {last last' : Bool} {din : Word}
    (h4 : padFourth last (decLanes din) = padFourth last' (decLanes din)) (strict : Bool) :
    decResult last din strict = decResult last' din strict := by
  have h3 : padThird last (decLanes din) = padThird last' (decLanes din) := congrArg (· && _) h4
  simp only [decResult, h3, h4]

/-- Settles O15: the padding as the conditions of a result's fields, and the entry that only PAD has. -/
theorem paddingDetection : Obligations.PaddingDetection := by
  refine ⟨fun din => ?_, fun c => (dectab_eq_64_iff c).symm⟩
  simp only [resultDecLast, resultDec, decResult_eq, padThird, padFourth, decLanes]
  refine ⟨?_, ?_, ?_, rfl, rfl, rfl⟩
  · rintro ⟨h4, h3⟩
    simp [h4, h3]
  · rintro ⟨h4, h3⟩
    simp [h4, h3]
  · intro h4
    simp [h4]

/-! ## Malformed groups (R150) -/

/-- A code unit of the alphabet is one whose entry has bit 6 clear (R106). -/
theorem sentinel_dectab_eq_false_iff (c : Byte) : sentinel (dectab c) = false ↔ ∃ i, alphabet i = c := by
  rw [← inAlphabet_iff, inAlphabet, Bool.not_eq_true']

/-- A code unit outside the alphabet is one whose entry has bit 6 set (R106). -/
theorem sentinel_dectab_iff_outside (c : Byte) : sentinel (dectab c) = true ↔ ∀ i, alphabet i ≠ c := by
  rw [← not_exists, ← sentinel_dectab_eq_false_iff, Bool.not_eq_false]

/-- Settles O16: bit 6 of the four entries, then what it says of each lane. -/
theorem malformedExactly : Obligations.MalformedExactly := by
  intro last din strict Outside s1 s2 s3 s4 p4 p3
  have hinv : (decResult last din strict).inv = (sentinel (dectab s1) || sentinel (dectab s2) ||
      (sentinel (dectab s3) && !p3) || (sentinel (dectab s4) && !p4)) := decResult_inv last din strict
  have hp4 : p4 = true ↔ last = true ∧ s4 = pad := by simp [p4]
  have hp3 : p3 = true ↔ last = true ∧ s3 = pad ∧ s4 = pad := by simp [p3, hp4, and_assoc, and_comm]
  refine ⟨hinv, ?_⟩
  simp only [hinv, Bool.or_eq_true, Bool.and_eq_true, Bool.not_eq_true', ← Bool.not_eq_true, hp3, hp4,
    sentinel_dectab_iff_outside, or_assoc, Outside]

/-! ## Completion (R143, R144, R151, R152, R173) -/

/-- The completion of a decoder command: its result in the result registers, and ERR_ENC set by a rejection (R173). -/
theorem step_blockTurn_dec {s : State} {last strict : Bool} {din : Word}
    (hp : s.pend = some { operation := .dec last, din := din, strict := strict }) (rest : List Input) :
    let r := decResult last din strict
    step (s.setInputs (.blockTurn :: rest)) = .next { s with
      dout := r.dout, outlen := r.outlen, npad := r.npad, inv := r.inv, errEnc := s.errEnc || r.encErr
      busy := false, pend := none, inputs := rest } := by
  rw [step_setInputs_cons, performInput, complete_of_some (s := s.setInputs rest) hp, PendRec.result, resultOf_dec]
  rfl

/-- Settles O17: the completion of a rejection, and the result of a group that is not malformed. -/
theorem strictMode : Obligations.StrictMode := by
  simp only [Obligations.StrictMode, decResult_inv]
  refine ⟨fun s last din rest hp hinv => ?_, fun last din hinv => decResult_strict_of_not_malformed hinv⟩
  rw [step_blockTurn_dec hp, decResult_strict_of_malformed hinv]
  simp [strictRejection]

/-- Settles O18: the completion of a result that is never rejected. -/
theorem baselineMode : Obligations.BaselineMode := by
  intro s last din rest hp v b p3 p4
  rw [step_blockTurn_dec hp, decResult_eq]
  simp [b, v, p3, p4, groupMalformed, apply_ite packBytes]

/-- A ready block accepts a decoder command, and its next turn writes the command's result. -/
theorem decCommand_completes {i : Instr} {last : Bool} (ho : operationOf i = some (.dec last)) {s : State} (hs : s.Ready) :
    let r := decResult last s.din s.strict
    ∃ t, exec i s = .next t ∧
      t = { s with busy := true, pend := some { operation := .dec last, din := s.din, strict := s.strict } } ∧
      ∀ rest, step (t.setInputs (.blockTurn :: rest)) = .next { s with
        dout := r.dout, outlen := r.outlen, npad := r.npad, inv := r.inv, errEnc := s.errEnc || r.encErr
        busy := false, pend := none, inputs := rest } :=
  ⟨s.accept (.dec last), exec_of_ready ho hs, rfl, step_blockTurn_dec (State.accept_pend s (.dec last))⟩

/-- Settles O20: the life of a decoder command without LAST, its result in slices of the table values. -/
theorem decDecodesQuadruple : Obligations.DecDecodesQuadruple := by
  refine ⟨rfl, fun s hs => ?_, fun s hr hb => exec_of_busy .dec hr hb⟩
  simpa [decResult_eq, padThird, padFourth, groupMalformed, malformed, sentinel, lookup4, decLanes, regroup4_eq, packBytes]
    using decCommand_completes (i := .dec) rfl hs

/-- Settles O21: the life of a decoder command with LAST, its result in slices of the table values. -/
theorem decLastDecodesFinalGroup : Obligations.DecLastDecodesFinalGroup := by
  refine ⟨rfl, fun s hs => ?_, fun s hr hb => exec_of_busy .decLast hr hb, fun din strict h4 => ?_⟩
  · simpa [decResult_eq, padThird, padFourth, groupMalformed, malformed, sentinel, lookup4, decLanes, regroup4_eq,
      packBytes] using decCommand_completes (i := .decLast) rfl hs
  · have hpad : padFourth true (decLanes din) = false := beq_false_of_ne h4
    exact decResult_eq_of_padFourth_eq (last' := false) hpad strict

end Sys2Proof.Machine
end

section
/-! The decoder on well-formed groups (42_decoder.md R153, R160): the bits that a padded group does not use, and the bytes that an
encoder command has read. -/

namespace Sys2Proof.Machine

/-! ## Unused low bits of a padded group (R153) -/

/-- Of the second index byte0 has bits 5:4 only. -/
theorem regroup4_mask_i1 (i : Sextets) :
    ({ regroup4 ({ i with i1 := i.i1 &&& 0x30 } : Sextets).entries with b1 := 0, b2 := 0 } : Bytes3) =
      { regroup4 i.entries with b1 := 0, b2 := 0 } := by
  simp only [regroup4_eq, Sextets.entries]
  congr 2
  ext j hj
  interval_cases j <;> simp

/-- Of the third index byte1 has bits 5:2 only, and byte0 has none. -/
theorem regroup4_mask_i2 (i : Sextets) :
    ({ regroup4 ({ i with i2 := i.i2 &&& 0x3C } : Sextets).entries with b2 := 0 } : Bytes3) =
      { regroup4 i.entries with b2 := 0 } := by
  simp only [regroup4_eq, Sextets.entries]
  congr 2
  ext j hj
  interval_cases j <;> simp

/-- Two padding characters: the masked bits are not in the byte that is left. -/
theorem resultDecLast_twoPads_mask (i : Sextets) (strict : Bool) :
    resultDecLast (packChars { i.chars with c2 := pad, c3 := pad }) strict =
      resultDecLast (packChars { ({ i with i1 := i.i1 &&& 0x30 } : Sextets).chars with c2 := pad, c3 := pad }) strict := by
  rw [resultDecLast_twoPads, resultDecLast_twoPads, regroup4_mask_i1]

/-- One padding character: the masked bits are not in the two bytes that are left. -/
theorem resultDecLast_onePad_mask (i : Sextets) (strict : Bool) :
    resultDecLast (packChars { i.chars with c3 := pad }) strict =
      resultDecLast (packChars { ({ i with i2 := i.i2 &&& 0x3C } : Sextets).chars with c3 := pad }) strict := by
  rw [resultDecLast_onePad, resultDecLast_onePad, regroup4_mask_i2]

/-- Settles O19: the groups have no malformed lane, and what they decode to lacks the masked bits. -/
theorem nonCanonicalBitsIgnored : Obligations.NonCanonicalBitsIgnored := by
  intro i1 i2 i3 strict
  let i : Sextets := ⟨i1, i2, i3, 0⟩
  exact ⟨congrArg CmdResult.inv (resultDecLast_twoPads i strict), resultDecLast_twoPads_mask i strict,
    congrArg CmdResult.inv (resultDecLast_onePad i strict), resultDecLast_onePad_mask i strict⟩

/-! ## Round trips (R160) -/

/-- enc.2 reads its two bytes where a decoder result holds them (R88). -/
theorem encLanes_two_packBytes (b0 b1 : Byte) : encLanes .two (packBytes ⟨b0, b1, 0⟩) = ⟨b0, b1, 0⟩ :=
  congrArg (fun b : Bytes3 => { b with b2 := 0 }) (encLanes_three_packBytes ⟨b0, b1, 0⟩)

/-- enc.1 reads its byte where a decoder result holds it (R88). -/
theorem encLanes_one_packBytes (b0 : Byte) : encLanes .one (packBytes ⟨b0, 0, 0⟩) = ⟨b0, 0, 0⟩ :=
  congrArg (fun b : Bytes3 => { b with b1 := 0, b2 := 0 }) (encLanes_three_packBytes ⟨b0, 0, 0⟩)

/-- Settles O23: the decoder gives back the bytes that the encoder command has read. -/
theorem groupRoundTrip : Obligations.GroupRoundTrip := by
  intro b0 b1 b2 strict
  refine ⟨fun last => ?_, ?_, ?_⟩
  · have hlanes := encLanes_three_packBytes ⟨b0, b1, b2⟩
    cases last with
    | false => exact (resultDec_encResult _ strict).trans (congrArg (decodedBytes .three) hlanes)
    | true => exact (resultDecLast_encResult .three _ strict).trans (congrArg (decodedBytes .three) hlanes)
  · exact (resultDecLast_encResult .two _ strict).trans (congrArg (decodedBytes .two) (encLanes_two_packBytes b0 b1))
  · exact (resultDecLast_encResult .one _ strict).trans (congrArg (decodedBytes .one) (encLanes_one_packBytes b0))

end Sys2Proof.Machine
end

section
/-! Valid texts (42_decoder.md R155, R156): a text is taken apart group by group, as the host's decoding procedure does. -/

namespace Sys2Proof.Machine

/-! ## Alphabet characters, then at most two padding characters -/

/-- The second condition of `ValidText`. -/
def AlphabetThenPads (text : List Byte) : Prop :=
  ∃ body n, n ≤ 2 ∧ text = body ++ List.replicate n pad ∧ ∀ c ∈ body, ∃ i, alphabet i = c

theorem validText_iff (text : List Byte) : ValidText text ↔ text.length % 4 = 0 ∧ AlphabetThenPads text := Iff.rfl

/-- With two characters or more after it, a character is not one of the padding. -/
theorem alphabetThenPads_cons {c : Byte} {text : List Byte} (h : 2 ≤ text.length) :
    AlphabetThenPads (c :: text) ↔ (∃ i, alphabet i = c) ∧ AlphabetThenPads text := by
  constructor
  · rintro ⟨body, n, hn, htext, hbody⟩
    cases body with
    | nil =>
      have hlength := congrArg List.length htext
      simp only [List.length_cons, List.nil_append, List.length_replicate] at hlength
      omega
    | cons b body =>
      obtain ⟨rfl, rfl⟩ := List.cons.inj htext
      obtain ⟨hc, hbody⟩ := List.forall_mem_cons.1 hbody
      exact ⟨hc, body, n, hn, rfl, hbody⟩
  · rintro ⟨hc, body, n, hn, rfl, hbody⟩
    exact ⟨c :: body, n, hn, rfl, List.forall_mem_cons.2 ⟨hc, hbody⟩⟩

theorem alphabetThenPads_append (front : List Byte) {text : List Byte} (h : 2 ≤ text.length) :
    AlphabetThenPads (front ++ text) ↔ (∀ c ∈ front, ∃ i, alphabet i = c) ∧ AlphabetThenPads text := by
  induction front with
  | nil => simp
  | cons c front ih =>
    have hlength : 2 ≤ (front ++ text).length := by rw [List.length_append]; omega
    rw [List.cons_append, alphabetThenPads_cons hlength, ih, List.forall_mem_cons, and_assoc]

/-- Of two characters the last can be padding, and only with it the one before. -/
theorem alphabetThenPads_pair (c d : Byte) :
    AlphabetThenPads [c, d] ↔
      ((∃ i, alphabet i = c) ∨ (d = pad ∧ c = pad)) ∧ ((∃ i, alphabet i = d) ∨ d = pad) := by
  constructor
  · rintro ⟨body, n, -, htext, hbody⟩
    match body with
    | [] =>
      obtain ⟨-, hpad⟩ := List.eq_replicate_iff.1 htext
      have hd : d = pad := hpad d (by simp)
      exact ⟨.inr ⟨hd, hpad c (by simp)⟩, .inr hd⟩
    | [b] =>
      obtain ⟨rfl, hrest⟩ := List.cons.inj htext
      obtain ⟨-, hpad⟩ := List.eq_replicate_iff.1 hrest
      exact ⟨.inl (hbody c (by simp)), .inr (hpad d (by simp))⟩
    | b :: b' :: body =>
      obtain ⟨rfl, hrest⟩ := List.cons.inj htext
      obtain ⟨rfl, -⟩ := List.cons.inj hrest
      exact ⟨.inl (hbody c (by simp)), .inl (hbody d (by simp))⟩
  · rintro ⟨hc | ⟨rfl, rfl⟩, hd⟩
    · obtain hd | rfl := hd
      · exact ⟨[c, d], 0, by decide, rfl, by simp [hc, hd]⟩
      · exact ⟨[c], 1, by decide, rfl, by simp [hc]⟩
    · exact ⟨[], 2, by decide, rfl, by simp⟩

/-! ## One group of a text -/

/-- A group is not malformed when lanes 1 and 2 are of the alphabet, and lanes 3 and 4 are or are allowed padding (R150). -/
theorem groupMalformed_eq_false_iff (last : Bool) (w : Word) :
    groupMalformed last w = false ↔ (∃ i, alphabet i = (decLanes w).c0) ∧ (∃ i, alphabet i = (decLanes w).c1) ∧
      ((∃ i, alphabet i = (decLanes w).c2) ∨ padThird last (decLanes w) = true) ∧
      ((∃ i, alphabet i = (decLanes w).c3) ∨ padFourth last (decLanes w) = true) := by
  simp only [groupMalformed, malformed, lookup4, Bool.or_eq_false_iff, Bool.and_eq_false_iff, Bool.not_eq_false',
    sentinel_dectab_eq_false_iff, and_assoc]

/-- Under dec every lane is of the alphabet. -/
theorem groupMalformed_dec_iff (w : Word) :
    groupMalformed false w = false ↔ ∀ c ∈ charsOf w, ∃ i, alphabet i = c := by
  simp [groupMalformed_eq_false_iff, padThird, padFourth, charsOf]

/-- Under dec.last the lanes are alphabet characters, then padding. -/
theorem groupMalformed_decLast_iff (w : Word) :
    groupMalformed true w = false ↔ AlphabetThenPads (charsOf w) := by
  have h4 : padFourth true (decLanes w) = true ↔ (decLanes w).c3 = pad := by simp [padFourth]
  have h3 : padThird true (decLanes w) = true ↔ (decLanes w).c3 = pad ∧ (decLanes w).c2 = pad := by
    simp [padThird, padFourth]
  have hchars : charsOf w = [(decLanes w).c0, (decLanes w).c1] ++ [(decLanes w).c2, (decLanes w).c3] := rfl
  rw [hchars, alphabetThenPads_append _ (by simp), alphabetThenPads_pair, groupMalformed_eq_false_iff, h3, h4,
    List.forall_mem_cons, List.forall_mem_singleton]
  exact and_assoc.symm

/-! ## A text, group by group -/

/-- The last group of a text (R155). -/
theorem validText_charsOf (w : Word) : ValidText (charsOf w) ↔ groupMalformed true w = false := by
  rw [groupMalformed_decLast_iff, validText_iff]
  exact and_iff_right (by simp)

/-- A group with more text after it (R155). -/
theorem validText_charsOf_append (w : Word) {text : List Byte} (h : text ≠ []) :
    ValidText (charsOf w ++ text) ↔ groupMalformed false w = false ∧ ValidText text := by
  have hlength : (charsOf w ++ text).length % 4 = text.length % 4 := by simp
  rw [groupMalformed_dec_iff, validText_iff, validText_iff, hlength, and_left_comm]
  refine and_congr_right fun hmod => alphabetThenPads_append _ ?_
  have hpos := List.length_pos_iff.2 h
  omega

/-- The text can be presented, and no result of its commands has the flag (R155). -/
def ResultsWithout (flag : CmdResult → Bool) (strict : Bool) (text : List Byte) : Prop :=
  ∃ rs, decodeResults strict text = some rs ∧ ∀ r ∈ rs, flag r = false

theorem resultsWithout_charsOf (flag : CmdResult → Bool) (strict : Bool) (w : Word) :
    ResultsWithout flag strict (charsOf w) ↔ flag (resultDecLast w strict) = false := by
  simp [ResultsWithout, decodeResults_charsOf]

theorem resultsWithout_charsOf_append (flag : CmdResult → Bool) (strict : Bool) (w : Word) {text : List Byte} (h : text ≠ []) :
    ResultsWithout flag strict (charsOf w ++ text) ↔
      flag (resultDec w strict) = false ∧ ResultsWithout flag strict text := by
  simp only [ResultsWithout, decodeResults_charsOf_append strict w h, Option.map_eq_some_iff]
  constructor
  · rintro ⟨_, ⟨rs, hrs, rfl⟩, hclear⟩
    obtain ⟨hfirst, hrest⟩ := List.forall_mem_cons.1 hclear
    exact ⟨hfirst, rs, hrs, hrest⟩
  · rintro ⟨hfirst, rs, hrs, hrest⟩
    exact ⟨_, ⟨rs, hrs, rfl⟩, List.forall_mem_cons.2 ⟨hfirst, hrest⟩⟩

theorem charsOf_packChars (c : Chars4) : charsOf (packChars c) = [c.c0, c.c1, c.c2, c.c3] := by
  simp only [charsOf, decLanes_packChars]

/-- A text is valid exactly when no result has the flag, for a flag that is set on the malformed groups. -/
theorem validText_iff_resultsWithout {strict : Bool} {flag : CmdResult → Bool}
    (hflag : ∀ last w, flag (decResult last w strict) = groupMalformed last w) (text : List Byte) :
    ValidText text ↔ ResultsWithout flag strict text := by
  induction text using decodeGroups.induct with
  | case1 => exact iff_of_true ⟨rfl, [], 0, by decide, rfl, by simp⟩ ⟨[], rfl, by simp⟩
  | case2 s1 s2 s3 s4 =>
    rw [← charsOf_packChars ⟨s1, s2, s3, s4⟩, validText_charsOf, resultsWithout_charsOf, resultDecLast, hflag]
  | case3 s1 s2 s3 s4 s5 rest ih =>
    have htext : s1 :: s2 :: s3 :: s4 :: s5 :: rest = charsOf (packChars ⟨s1, s2, s3, s4⟩) ++ s5 :: rest := by
      rw [charsOf_packChars]
      rfl
    rw [htext, validText_charsOf_append _ (by simp), resultsWithout_charsOf_append _ _ _ (by simp), resultDec, hflag, ih]
  | case4 text hnil hfour hlong =>
    match text with
    | [] => exact absurd rfl hnil
    | [_] | [_, _] | [_, _, _] => simp [ValidText, ResultsWithout, decodeResults, decodeGroups]
    | [s1, s2, s3, s4] => exact absurd rfl (hfour s1 s2 s3 s4)
    | s1 :: s2 :: s3 :: s4 :: s5 :: rest => exact absurd rfl (hlong s1 s2 s3 s4 s5 rest)

/-- Settles O27: INV is such a flag in either mode, and the report of ErrEnc is one in strict mode. -/
theorem textValidExactly : Obligations.TextValidExactly :=
  fun text => ⟨fun strict => validText_iff_resultsWithout (fun last w => decResult_inv last w strict) text,
    validText_iff_resultsWithout (fun last w => decResult_encErr last w true) text⟩

end Sys2Proof.Machine
end

section
/-! The lifecycle of a command (43_control.md R170 to R178): what a CMD write of each kind of word does, what the block's turn
writes, what keeps a pending record, and that a run reaches its end. -/

namespace Sys2Proof.Machine

/-! ## A CMD write: acceptance, nop, reserved words (R171, R175, R176) -/

/-- Settles O29: a ready block accepts the operation of the command. -/
theorem acceptanceLatchesOperands : Obligations.AcceptanceLatchesOperands :=
  fun _ _ _ ho hs => exec_of_ready ho hs

/-- A reserved word raises ErrCmd behind the gate, whatever its class (R175). -/
theorem writeCmd_of_reserved {w : Word} {why : ReservedReason} (h : decodeWord w = .reserved why) (s : State) :
    writeCmd w s = gateWrite s fun s => .next (s.raise .errCmd) := by
  simp [writeCmd, h, execReserved]

/-- Settles O33, by the gate's two cases outside reset. -/
theorem reservedWordRaisesErrCmd : Obligations.ReservedWordRaisesErrCmd := by
  intro s host w why rest hw hr
  rw [step_wordWrite_cmd, writeCmd_of_reserved hw]
  split_ifs with hb
  · exact gateWrite_of_busy (s := s.setInputs rest) hr hb _
  · exact gateWrite_of_ready (s := s.setInputs rest) ⟨hr, Bool.eq_false_iff.2 hb⟩ _

theorem exec_nop_of_ready {s : State} (hs : s.Ready) : exec .nop s = .next s :=
  gateWrite_of_ready hs _

/-- Acceptance shows in BUSY. -/
theorem accept_ne_self {s : State} (hb : s.busy = false) (o : Operation) : s.accept o ≠ s :=
  fun h => by simpa [hb] using congrArg State.busy h

/-- ErrCmd shows in ERR_CMD when that bit was 0 (log entry 12). -/
theorem raise_errCmd_ne_self {s : State} (he : s.errCmd = false) : s.raise .errCmd ≠ s :=
  fun h => by simpa [he] using congrArg State.errCmd h

/-- An accepted word would have set BUSY, and a reserved one ERR_CMD (R176; log entry 12). -/
theorem decodeWord_eq_nop_of_writeCmd_eq_self {s : State} {w : Word} (hs : s.Ready) (he : s.errCmd = false)
    (h : writeCmd w s = .next s) : decodeWord w = .instr .nop := by
  cases hw : decodeWord w with
  | instr i =>
    rw [writeCmd_of_instr hw] at h
    by_contra hi
    obtain ⟨o, ho⟩ := exists_operationOf (i := i) fun hnop => hi (by rw [hnop])
    rw [exec_of_ready ho hs, Host.Outcome.next.injEq] at h
    exact accept_ne_self hs.2 o h
  | reserved why =>
    rw [writeCmd_of_reserved hw, gateWrite_of_ready hs, Host.Outcome.next.injEq] at h
    exact absurd h (raise_errCmd_ne_self he)

/-- Settles O28: only nop's word decodes to nop, and every other word shows in BUSY or in ERR_CMD. -/
theorem nopChangesNothing : Obligations.NopChangesNothing := by
  refine ⟨rfl, fun s w hs he => ⟨fun h => ?_, ?_⟩, fun s hs => exec_nop_of_ready hs,
    fun s hr hb => exec_of_busy .nop hr hb⟩
  · exact decodeWord_eq_instr (decodeWord_eq_nop_of_writeCmd_eq_self hs he h)
  · rintro rfl
    exact (writeCmd_of_instr (decodeWord_encode .nop) s).trans (exec_nop_of_ready hs)

/-! ## The block's turn (R172, R173; log entry 2) -/

theorem step_of_no_inputs {s : State} (h : s.inputs = []) : step s = .next s.complete := by
  simp [step, takeTurn, h]

theorem step_blockTurn (s : State) (rest : List Input) :
    step (s.setInputs (.blockTurn :: rest)) = .next (s.setInputs rest).complete := rfl

/-- Settles O31: a turn with a command pending is its completion. -/
theorem completionWritesResult : Obligations.CompletionWritesResult := by
  intro s p rest hp
  rw [step_blockTurn, complete_of_some (s := s.setInputs rest) hp]
  rfl

/-- Settles O32: with no input left the step is a turn, and a turn with nothing pending changes nothing. -/
theorem turnWithoutInputs : Obligations.TurnWithoutInputs := by
  refine ⟨fun s p hp hin => ?_, fun s hend => ?_, fun s rest hp => ?_⟩
  · rw [step_of_no_inputs hin, complete_of_some hp]
    rfl
  · rw [step_of_no_inputs hend.1, complete_of_none hend.2]
  · rw [step_blockTurn, complete_of_none (s := s.setInputs rest) hp]

/-! ## The pending record (R177, R202) -/

/-- Only acceptance places a record, and the gate lets it through with BUSY = 0 only (R60). -/
theorem performAccess_pend_of_busy {a : Access} {s t : State} (hb : s.busy = true) (h : performAccess a s = .next t) :
    t.pend = s.pend := by
  obtain rfl | ⟨-, ⟨-, rfl⟩ | ⟨-, rfl⟩ | ⟨hready, -⟩ | ⟨v, -, -, rfl⟩ | ⟨v, -, -, -, rfl⟩ | ⟨v, -, -, -, rfl⟩ | ⟨-, v, rfl⟩⟩ :=
    performAccess_cases h
  · rfl
  · rfl
  · rfl
  · cases hready.symm.trans hb
  · rfl
  · rfl
  · rfl
  · rfl

@[simp] theorem complete_pend (s : State) : s.complete.pend = none := by
  cases h : s.pend <;> simp [State.complete, h]

/-- The invariant sets BUSY beside a pending record (R40). -/
theorem State.Inv.busy_of_pend {s : State} {p : PendRec} (h : s.Inv) (hp : s.pend = some p) : s.busy = true := by
  simpa [hp] using h.busy_iff_pend

/-- Settles O53: of the inputs, an access and the release of reset keep the record. -/
theorem pendingRecordStable : Obligations.PendingRecordStable := by
  intro s t p hinv hp hstep hne
  obtain ⟨hin, rfl⟩ | ⟨x, rest, hin, ⟨a, -, hacc⟩ | ⟨rfl, rfl⟩ | ⟨rfl, rfl⟩ | ⟨-, rfl⟩⟩ := step_next hstep
  · exact ⟨complete_pend s, .inl hin⟩
  · have hkeep : t.pend = s.pend := performAccess_pend_of_busy (s := s.setInputs rest) (hinv.busy_of_pend hp) hacc
    exact absurd (hkeep.trans hp) hne
  · exact ⟨complete_pend _, .inr (.inl ⟨rest, hin⟩)⟩
  · exact ⟨State.assertReset_pend _, .inr (.inr ⟨rest, hin⟩)⟩
  · exact absurd hp hne

/-! ## A run reaches its end (R172, R178) -/

/-- Outside reset the gate refuses nothing by itself. -/
theorem exists_gateWrite_next {s : State} (hr : s.inReset = false) (f : State → State) :
    ∃ t, gateWrite s (fun s => .next (f s)) = .next t := by
  cases hb : s.busy with
  | false => exact ⟨_, gateWrite_of_ready ⟨hr, hb⟩ _⟩
  | true => exact ⟨_, gateWrite_of_busy hr hb _⟩

theorem exists_writeCmd_next {s : State} (hr : s.inReset = false) (w : Word) : ∃ t, writeCmd w s = .next t := by
  cases hw : decodeWord w with
  | instr i => rw [writeCmd_of_instr hw, exec_eq_gate]; exact exists_gateWrite_next hr _
  | reserved why => rw [writeCmd_of_reserved hw]; exact exists_gateWrite_next hr _

theorem exists_writeReg_next {s : State} (hr : s.inReset = false) (off : Nat) (v : Word) :
    ∃ t, writeReg off v s = .next t := by
  by_cases hoff : off ∈ [0x00, 0x04, 0x08, 0x0C]
  · simp only [List.mem_cons, List.not_mem_nil, or_false] at hoff
    obtain rfl | rfl | rfl | rfl := hoff
    · exact exists_writeCmd_next hr v
    · exact ⟨_, writeReg_status v s⟩
    · exact exists_gateWrite_next hr _
    · exact exists_gateWrite_next hr _
  · exact ⟨s, writeReg_ignored hoff v s⟩

/-- An access outside the window or of the defined form is not refused outside reset (R50, R54, R206). -/
theorem exists_performAccess_next {a : Access} {s : State} (hr : s.inReset = false)
    (ha : a.touches s.base = false ∨ a.supported s.base = true) : ∃ t, performAccess a s = .next t := by
  cases ht : a.touches s.base with
  | false => exact ⟨s, performAccess_of_not_touches ht⟩
  | true =>
    have hs : a.supported s.base = true := by simpa [ht] using ha
    cases hk : a.kind with
    | read => exact ⟨_, performAccess_read ht hr hs hk⟩
    | write v => rw [performAccess_write ht hr hs hk]; exact exists_writeReg_next hr _ v

/-- An access changes neither reset, nor BASE, nor the inputs still to come. -/
theorem performAccess_frame {a : Access} {s t : State} (h : performAccess a s = .next t) :
    t.inReset = s.inReset ∧ t.base = s.base ∧ t.inputs = s.inputs := by
  obtain rfl | ⟨-, ⟨-, rfl⟩ | ⟨-, rfl⟩ | ⟨-, o, rfl⟩ | ⟨v, -, -, rfl⟩ | ⟨v, -, -, -, rfl⟩ | ⟨v, -, -, -, rfl⟩ | ⟨-, v, rfl⟩⟩ :=
    performAccess_cases h <;> simp

theorem complete_frame (s : State) :
    s.complete.inReset = s.inReset ∧ s.complete.base = s.base ∧ s.complete.inputs = s.inputs := by
  cases h : s.pend <;> simp [State.complete, h]

/-- The inputs of the runs that R172 speaks of: turns of the block, and accesses outside the window or of the defined form. -/
def Input.Defined (base : Nat) (x : Input) : Prop :=
  x = .blockTurn ∨ ∃ a, x = .access a ∧ (a.touches base = false ∨ a.supported base = true)

/-- No such input is refused, and what makes the inputs after it defined stays as it was. -/
theorem exists_performInput_next {x : Input} {s : State} (hr : s.inReset = false) (hx : x.Defined s.base) :
    ∃ t, performInput x s = .next t ∧ t.inReset = false ∧ t.base = s.base ∧ t.inputs = s.inputs := by
  obtain rfl | ⟨a, rfl, ha⟩ := hx
  · exact ⟨s.complete, rfl, hr ▸ complete_frame s⟩
  · obtain ⟨t, ht⟩ := exists_performAccess_next hr ha
    exact ⟨t, ht, hr ▸ performAccess_frame ht⟩

theorem step_of_inputs_cons {s : State} {x : Input} {rest : List Input} (h : s.inputs = x :: rest) :
    step s = performInput x (s.setInputs rest) := by
  simp [step, takeTurn, h]

/-- One step for each input, and one more for a command still pending. -/
theorem run_reaches_end (inputs : List Input) {s : State} (hin : s.inputs = inputs) (hr : s.inReset = false)
    (hdef : ∀ x ∈ inputs, x.Defined s.base) : ∃ t, run (inputs.length + 1) s = .next t ∧ t.Ended := by
  induction inputs generalizing s with
  | nil =>
    obtain ⟨-, -, hinputs⟩ := complete_frame s
    exact ⟨s.complete, run_succ (step_of_no_inputs hin) 0, hinputs.trans hin, complete_pend s⟩
  | cons x rest ih =>
    obtain ⟨t, hx, htr, htbase, htin⟩ :=
      exists_performInput_next (s := s.setInputs rest) hr (hdef x List.mem_cons_self)
    have htdef : ∀ y ∈ rest, y.Defined t.base := fun y hy => htbase ▸ hdef y (List.mem_cons_of_mem x hy)
    rw [List.length_cons, run_succ ((step_of_inputs_cons hin).trans hx)]
    exact ih htin htr htdef

/-- Settles O39: the inputs of the statement are defined ones. -/
theorem everyRunEnds : Obligations.EveryRunEnds :=
  fun _ hr hdef => run_reaches_end _ rfl hr hdef

end Sys2Proof.Machine
end

section
/-! Events (60_exceptions.md R200 to R207): what each operation makes of the three sticky bits, and from this which inputs raise an
event and which clear one. -/

namespace Sys2Proof.Machine

/-! ## The sticky bits after each operation -/

/-- Raising an event sets its own bit and leaves the others (R200, R207). -/
@[simp] theorem sticky_raise (s : State) (e f : Event) : (s.raise e).sticky f = (s.sticky f || decide (e = f)) := by
  cases e <;> cases f <;> simp [State.raise, State.sticky]

/-- A STATUS write clears the bits it selects (R58). -/
@[simp] theorem sticky_clearSelected (s : State) (v : Word) (e : Event) :
    (s.clearSelected v).sticky e = (s.sticky e && !v.getLsbD e.code) := by
  cases e <;> rfl

/-- A completion keeps ERR_ENC or sets it (R173). -/
@[simp] theorem sticky_finish (s : State) (r : CmdResult) (e : Event) :
    (s.finish r).sticky e = (s.sticky e || (r.encErr && decide (e = .errEnc))) := by
  cases e <;> simp [State.finish, State.sticky]

@[simp] theorem sticky_assertReset (s : State) (e : Event) : s.assertReset.sticky e = false := by
  cases e <;> rfl

@[simp] theorem sticky_releaseReset (s : State) (e : Event) : s.releaseReset.sticky e = s.sticky e := rfl

@[simp] theorem sticky_setInputs (s : State) (rest : List Input) (e : Event) :
    (s.setInputs rest).sticky e = s.sticky e := rfl

/-- An access clears bits as a STATUS write, or raises one event that is not ErrEnc, or leaves the sticky bits as they were. -/
theorem performAccess_sticky {a : Access} {s t : State} (h : performAccess a s = .next t) :
    (∃ v, a.addr = s.base + 0x04 ∧ a.kind = .write v ∧ t = s.clearSelected v) ∨
      (∃ f, f ≠ .errEnc ∧ t = s.raise f) ∨ t.sticky = s.sticky := by
  obtain rfl | ⟨-, ⟨-, rfl⟩ | ⟨-, rfl⟩ | ⟨-, o, rfl⟩ | hclear | ⟨v, -, -, -, rfl⟩ | ⟨v, -, -, -, rfl⟩ | ⟨-, v, rfl⟩⟩ :=
    performAccess_cases h
  · exact .inr (.inr rfl)
  · exact .inr (.inl ⟨.errOvr, by decide, rfl⟩)
  · exact .inr (.inl ⟨.errCmd, by decide, rfl⟩)
  · exact .inr (.inr rfl)
  · exact .inl hclear
  · exact .inr (.inr rfl)
  · exact .inr (.inr rfl)
  · exact .inr (.inr rfl)

/-- The block's turn changes no sticky bit but ERR_ENC, and clears none (R173). -/
theorem complete_sticky (s : State) :
    ∃ b, ∀ e, s.complete.sticky e = (s.sticky e || (b && decide (e = .errEnc))) := by
  cases hp : s.pend with
  | none => exact ⟨false, fun e => by simp [complete_of_none hp]⟩
  | some p => exact ⟨p.result.encErr, fun e => by rw [complete_of_some hp, sticky_finish]⟩

/-! ## What raises an event (R203, R205) -/

/-- From `s` to `t` the event's sticky bit goes from 0 to 1. -/
def Raised (s t : State) (e : Event) : Prop := s.sticky e = false ∧ t.sticky e = true

theorem not_raised_of_sticky_eq {s t : State} {e : Event} (h : t.sticky e = s.sticky e) : ¬ Raised s t e :=
  fun ⟨hs, ht⟩ => by simp [h, hs] at ht

/-- An access raises at most one event, and that is not ErrEnc. -/
theorem performAccess_raised {a : Access} {s t : State} (h : performAccess a s = .next t) :
    ∃ f, f ≠ .errEnc ∧ ∀ e, Raised s t e → e = f := by
  obtain ⟨v, -, -, rfl⟩ | ⟨f, hf, rfl⟩ | hkeep := performAccess_sticky h
  · exact ⟨.errCmd, by decide, fun e ⟨hs, ht⟩ => by simp [hs] at ht⟩
  · exact ⟨f, hf, fun e ⟨hs, ht⟩ => by simpa [hs, eq_comm] using ht⟩
  · exact ⟨.errCmd, by decide, fun e he => absurd he (not_raised_of_sticky_eq (congrFun hkeep e))⟩

theorem complete_raised {s : State} {e : Event} (h : Raised s s.complete e) : e = .errEnc := by
  obtain ⟨b, hb⟩ := complete_sticky s
  obtain ⟨hs, ht⟩ := h
  simp only [hb, hs, Bool.false_or, Bool.and_eq_true, decide_eq_true_eq] at ht
  exact ht.2

/-- A step raises at most the one event `f`: at an access not ErrEnc, at the block's turn ErrEnc. -/
theorem step_raised {s t : State} (h : step s = .next t) :
    ∃ f, (∀ e, Raised s t e → e = f) ∧ (∀ a rest, s.inputs = .access a :: rest → f ≠ .errEnc) ∧
      (∀ rest, s.inputs = [] ∨ s.inputs = .blockTurn :: rest → f = .errEnc) := by
  obtain ⟨hin, rfl⟩ | ⟨x, rest, hin, ⟨a, rfl, hacc⟩ | ⟨rfl, rfl⟩ | ⟨rfl, rfl⟩ | ⟨rfl, rfl⟩⟩ := step_next h
  · exact ⟨.errEnc, fun e => complete_raised, by simp [hin], fun _ _ => rfl⟩
  · obtain ⟨f, hf, hraised⟩ := performAccess_raised hacc
    exact ⟨f, hraised, fun _ _ _ => hf, by simp [hin]⟩
  · exact ⟨.errEnc, fun e => complete_raised (s := s.setInputs rest), by simp [hin], fun _ _ => rfl⟩
  · exact ⟨.errEnc, fun e ⟨_, ht⟩ => by simp at ht, by simp [hin], fun _ _ => rfl⟩
  · exact ⟨.errEnc, fun e he => absurd he (not_raised_of_sticky_eq rfl), by simp [hin], fun _ _ => rfl⟩

/-- Settles O49: what the step raises is the one event of `step_raised`. -/
theorem atMostOneEventPerStep : Obligations.AtMostOneEventPerStep := by
  intro s t hstep
  obtain ⟨f, hraised, haccess, hturn⟩ := step_raised hstep
  refine ⟨fun e e' he he' => (hraised e he).trans (hraised e' he').symm, fun a rest hin he => ?_, fun rest hin e he => ?_⟩
  · exact haccess a rest hin (hraised _ he).symm
  · exact (hraised e he).trans (hturn rest hin)

/-! ## What clears a sticky bit (R207) -/

theorem raise_raise (s : State) (e : Event) : (s.raise e).raise e = s.raise e := by
  cases e <;> rfl

/-- An access clears a sticky bit only as a STATUS write that selects it (R58, R207). -/
theorem performAccess_cleared {a : Access} {s t : State} {e : Event} (h : performAccess a s = .next t)
    (hs : s.sticky e = true) (ht : t.sticky e = false) :
    ∃ v, a.addr = s.base + 0x04 ∧ a.kind = .write v ∧ v.getLsbD e.code = true := by
  obtain ⟨v, ha, hk, rfl⟩ | ⟨f, -, rfl⟩ | hkeep := performAccess_sticky h
  · exact ⟨v, ha, hk, by simpa [hs] using ht⟩
  · simp [hs] at ht
  · simp [hkeep, hs] at ht

/-- The block's turn clears no sticky bit (R173). -/
theorem complete_sticky_of_sticky {s : State} {e : Event} (hs : s.sticky e = true) : s.complete.sticky e = true := by
  obtain ⟨b, hb⟩ := complete_sticky s
  simp [hb, hs]

/-- Settles O50: of the inputs, only a STATUS write and reset clear a bit. -/
theorem stickyUntilClearedOrReset : Obligations.StickyUntilClearedOrReset := by
  refine ⟨fun s t e hstep hs ht => ?_, fun s e f => ⟨raise_raise s e, sticky_raise s e f⟩⟩
  obtain ⟨-, rfl⟩ | ⟨x, rest, hin, ⟨a, rfl, hacc⟩ | ⟨-, rfl⟩ | ⟨rfl, -⟩ | ⟨-, rfl⟩⟩ := step_next hstep
  · simp [complete_sticky_of_sticky hs] at ht
  · obtain ⟨v, ha, hk, hv⟩ := performAccess_cleared (s := s.setInputs rest) hacc hs ht
    exact .inl ⟨a, v, rest, hin, ha, hk, hv⟩
  · simp [complete_sticky_of_sticky (s := s.setInputs rest) hs] at ht
  · exact .inr ⟨rest, hin⟩
  · simp [hs] at ht

end Sys2Proof.Machine
end

section
/-! Reset (70_reset_and_hazards.md R230 to R233): the reset values as software reads them, the steps of asserting and of releasing
reset, and what is refused between the two. -/

namespace Sys2Proof.Machine

/-! ## The reset values (R230) -/

/-- Each register's reset value, as one conjunction. -/
theorem registersReset_iff (s : State) : s.registersReset = true ↔
    s.strict = false ∧ s.din = 0 ∧ s.dout = 0 ∧ s.busy = false ∧ s.outlen = 0 ∧ s.npad = 0 ∧ s.inv = false ∧
      s.errCmd = false ∧ s.errOvr = false ∧ s.errEnc = false ∧ s.pend = none := by
  simp [State.registersReset, and_assoc]

/-- STATUS, CONFIG, DIN and DOUT hold 0, and every other offset reads 0 anyway (R51). -/
theorem readReg_of_registersReset {s : State} (h : s.registersReset = true) (off : Nat) : s.readReg off = 0 := by
  obtain ⟨hstrict, hdin, hdout, hbusy, houtlen, hnpad, hinv, herrCmd, herrOvr, herrEnc, -⟩ := (registersReset_iff s).1 h
  have hstatus : s.statusWord = 0 := by
    rw [State.statusWord, herrEnc, herrOvr, herrCmd, hinv, hnpad, houtlen, hbusy]
    rfl
  have hconfig : s.configWord = 0 := by
    rw [State.configWord, hstrict]
    rfl
  simp only [State.readReg, hstatus, hconfig, hdin, hdout, ite_self]

theorem registersReset_reset : State.reset.registersReset = true := rfl

theorem registersReset_assertReset (s : State) : s.assertReset.registersReset = true := rfl

/-! ## The steps of reset (log entry 8) -/

theorem step_assertReset (s : State) (rest : List Input) :
    step (s.setInputs (.assertReset :: rest)) = .next (s.setInputs rest).assertReset := rfl

theorem step_releaseReset (s : State) (rest : List Input) :
    step (s.setInputs (.releaseReset :: rest)) = .next (s.setInputs rest).releaseReset := rfl

/-- Asserting reset leaves only the window, the inputs and the replies of the state before it. -/
theorem assertReset_eq (s : State) : s.assertReset =
    { State.reset with inReset := true, window := s.window, inputs := s.inputs, replies := s.replies } := rfl

/-- The gate that every command is behind refuses during reset (R233). -/
theorem exec_of_inReset (i : Instr) {s : State} (hr : s.inReset = true) : exec i s = .refused .accessDuringReset := by
  rw [exec_eq_gate, gateWrite_of_inReset hr]

/-- Settles O54: the registers hold their reset values, and with no record left the block's turn completes nothing. -/
theorem resetFromAnyState : Obligations.ResetFromAnyState := by
  refine ⟨fun s rest => ⟨(s.setInputs rest).assertReset, step_assertReset s rest, ?_⟩,
    registersReset_reset, readReg_of_registersReset registersReset_reset⟩
  have hreset := registersReset_assertReset (s.setInputs rest)
  obtain ⟨hstrict, hdin, hdout, hbusy, houtlen, hnpad, hinv, herrCmd, herrOvr, herrEnc, hpend⟩ :=
    (registersReset_iff _).1 hreset
  exact ⟨hstrict, hdin, hdout, hbusy, houtlen, hnpad, hinv, herrCmd, herrOvr, herrEnc, hpend,
    readReg_of_registersReset hreset, complete_of_none hpend⟩

/-- Settles O55: the two steps, and the gate during reset. -/
theorem resetKeepsModelFields : Obligations.ResetKeepsModelFields :=
  ⟨fun s rest => (step_assertReset s rest).trans (congrArg _ (assertReset_eq _)), step_releaseReset,
    fun _ i hr => exec_of_inReset i hr⟩

/-- Settles O56: such an access reaches the window. -/
theorem accessDuringResetRefused : Obligations.AccessDuringResetRefused := by
  intro s a rest hr hlow hhigh hbytes
  have ht : a.touches s.base = true := (touches_iff _ _).2 ⟨hhigh, by omega⟩
  exact performAccess_of_inReset (s := s.setInputs rest) ht hr

end Sys2Proof.Machine
end
